-- ==== Sys2Proof/Word.lean ====
section
/-!
DEFINITION. The plain data words of the block: bytes, 32-bit register words, 40-bit frame words and the 5-byte frame
(spec/00_scope.md R10 to R12, spec/30_encoding.md R70, R73).
-/

namespace Sys2Proof

/-- `Byte` of R12. -/
abbrev Byte := BitVec 8

/-- A 32-bit register word (R50). -/
abbrev Word32 := BitVec 32

/-- A chip register address as a frame carries it: 7 bits (R50, R70). -/
abbrev RegAddr := BitVec 7

/-- `Frame` of R12: exactly 5 bytes, byte 0 first (R11). One type for command and response frames (R70, R73). -/
structure Frame where
  b0 : Byte
  b1 : Byte
  b2 : Byte
  b3 : Byte
  b4 : Byte
  deriving DecidableEq, Repr, Inhabited

end Sys2Proof
end

