-- ==== Sys2Proof/Config.lean ====
section
/-!
DEFINITION. What an implementation or the environment fixes (spec/00_scope.md R9), and the free values: opaque constants
without a body, so that nothing proved of the model can rest on a value of one.
-/

namespace Sys2Proof

/-- A transport error: "an opaque value that the block passes on unchanged" (R86, R157, D17). The number only tells one
error from another; no rule reads it (log 11). -/
structure TransportError where
  code : Nat
  deriving DecidableEq, Repr, Inhabited

/-- What `exchange` answers (R86, R107): any frame, or any transport error. -/
inductive Answer where
  | frame (r : Frame)
  | error (e : TransportError)
  deriving DecidableEq, Repr, Inhabited

/-- `P_ROUND` (R9, R121). `halfUp` is the normative value; `halfEven` is for crosschecks (C9). -/
inductive Rounding where
  | halfUp
  | halfEven
  deriving DecidableEq, Repr, Inhabited

/-- `P_NUMERICS` (R9, D1). `exact` is the normative value; `binary64` is for crosschecks. -/
inductive Numerics where
  | exact
  | binary64
  deriving DecidableEq, Repr, Inhabited

/-- The arguments of the model (R9) that a step reads. `chopconf` is `P_CHOPCONF`, a signed 32-bit integer given by its
32 bits. `P_AXES` is the number of axes of a state; `P_POLL_INTERVAL` and `P_SPI_HZ` are not modelled (R9). -/
structure Params where
  chopconf  : Word32
  pollLimit : Option Nat
  round     : Rounding
  numerics  : Numerics
  deriving DecidableEq, Repr, Inhabited

/-- An axis-to-chip map: "Each chip select belongs to exactly one axis controller" (R64), so it is injective. -/
structure ChipMap where
  chip      : Nat → Nat := fun i => i
  injective : ∀ i j, chip i = chip j → i = j := by intro i j h; exact h
  deriving Inhabited

namespace Config

/-- `P_CHOPCONF` of the machine: OPEN (R9, D13). A free value (log 6). -/
opaque chopconf : Word32

/-- `P_AXES` minus one: OPEN, `P_AXES` is at least 1 (R9, D28). A free value (log 7). -/
opaque otherAxes : Nat

/-- The axis-to-chip map, "an injective parameter": OPEN (R64, D28). A free value (log 8). -/
opaque chipMap : ChipMap

/-- The transport's `n`-th answer where the state lists none (R107: "an oracle draw"). A free value (log 9). -/
opaque answer : Nat → Answer

/-- The axis that takes the `n`-th controller step where the state lists none (R63, R172). A free value (log 10). -/
opaque turn : Nat → Nat

/-- The result of a binary64 operation whose exact value is outside the format: not stated (D1). A free value (log 18). -/
opaque binary64Overflow : Rat → Rat

/-- The machine's arguments: OPEN for `P_CHOPCONF`, and as R9 fixes them for the rest. -/
def params : Params :=
  { chopconf := chopconf, pollLimit := none, round := .halfUp, numerics := .exact }

end Config

end Sys2Proof
end

