-- ==== Sys2Proof/Syntax.lean ====
section
/-!
DEFINITION. The instructions: one constructor per row of spec/opcode_table.json (spec/00_scope.md R3: "instruction" means
host command or wire frame), and the words they are encoded in: a host command is a 4-bit code with typed operands
(spec/30_encoding.md R79 to R81), a wire frame is 5 bytes (R70).
-/

namespace Sys2Proof

/-- `dir` of R81: `WRITE` (1) or `READ` (0). -/
inductive Dir where
  | read
  | write
  deriving DecidableEq, Repr, Inhabited

/-- The chip registers the source names (R35). -/
inductive Reg where
  /-- `GCONF`, general-config, address 0x00. -/
  | gconf
  /-- `GSTAT`, global-status, address 0x01. -/
  | gstat
  /-- `IHOLD_IRUN`, hold/run-current, address 0x10. -/
  | iholdIrun
  /-- `TPOWERDOWN`, power-down-delay, address 0x11. -/
  | tpowerdown
  /-- `RAMPMODE`, ramp-mode, address 0x20. -/
  | rampmode
  /-- `XACTUAL`, actual-position, address 0x21. -/
  | xactual
  /-- `A1`, accel-phase-1, address 0x24. -/
  | a1
  /-- `V1`, velocity-phase-1, address 0x25. -/
  | v1
  /-- `AMAX`, max-accel, address 0x26. -/
  | amax
  /-- `VMAX`, max-velocity, address 0x27. -/
  | vmax
  /-- `D1`, decel-phase-1, address 0x2A. -/
  | d1
  /-- `VSTOP`, stop-velocity, address 0x2B. -/
  | vstop
  /-- `XTARGET`, target-position, address 0x2D. -/
  | xtarget
  /-- `X_ENC`, encoder-position, address 0x39. -/
  | xEnc
  /-- `CHOPCONF`, chopper-config, address 0x6C. -/
  | chopconf
  /-- `PWMCONF`, PWM-config, address 0x70. -/
  | pwmconf
  deriving DecidableEq, Repr, Inhabited

/-- The instructions, in the order of the opcode table. -/
inductive Instr where
  /-- ENCODE_FRAME, code 0x1 (R92). -/
  | encodeFrame (dir : Dir) (addr value : Int)
  /-- DECODE_FRAME, code 0x2 (R95). -/
  | decodeFrame (frame : Frame)
  /-- WRITE_REG, code 0x3 (R111). -/
  | writeReg (addr value : Int)
  /-- READ_REG, code 0x4 (R112). -/
  | readReg (addr : Int)
  /-- GET_FLAGS, code 0x5 (R113). -/
  | getFlags
  /-- SETUP, code 0x6 (R126). -/
  | setup (speed accelTime irunMa iholdMa : Rat)
  /-- MOVE_ABS, code 0x7 (R135). `blocking` is true where it is left out (R81). -/
  | moveAbs (target : Int) (blocking : Bool := true)
  /-- GET_POS, code 0x8 (R143). -/
  | getPos
  /-- SET_POS, code 0x9 (R144). The argument is never read. -/
  | setPos (x : Rat)
  /-- READ_ENC, code 0xA (R145). -/
  | readEnc
  /-- SET_ENC, code 0xB (R146). -/
  | setEnc (x : Rat)
  /-- The reserved code 0x0 (R82). -/
  | reserved0
  /-- The reserved code 0xC (R82). -/
  | reservedC
  /-- The reserved code 0xD (R82). -/
  | reservedD
  /-- The reserved code 0xE (R82). -/
  | reservedE
  /-- The reserved code 0xF (R82). -/
  | reservedF
  /-- FRAME_READ: a read frame to an address that has no row of its own (R70, R71). -/
  | frameRead (addr : RegAddr) (data : Word32)
  /-- FRAME_WRITE: a write frame to an address that has no row of its own (R70, R71). -/
  | frameWrite (addr : RegAddr) (data : Word32)
  /-- WR.GCONF: byte 0 is 0x80 (R76). -/
  | wrGconf (data : Word32)
  /-- WR.CHOPCONF: byte 0 is 0xEC (R76). -/
  | wrChopconf (data : Word32)
  /-- WR.IHOLD_IRUN: byte 0 is 0x90 (R76). -/
  | wrIholdIrun (data : Word32)
  /-- WR.TPOWERDOWN: byte 0 is 0x91 (R76). -/
  | wrTpowerdown (data : Word32)
  /-- WR.PWMCONF: byte 0 is 0xF0 (R76). -/
  | wrPwmconf (data : Word32)
  /-- WR.A1: byte 0 is 0xA4 (R76). -/
  | wrA1 (data : Word32)
  /-- WR.V1: byte 0 is 0xA5 (R76). -/
  | wrV1 (data : Word32)
  /-- WR.AMAX: byte 0 is 0xA6 (R76). -/
  | wrAmax (data : Word32)
  /-- WR.VMAX: byte 0 is 0xA7 (R76). -/
  | wrVmax (data : Word32)
  /-- WR.D1: byte 0 is 0xAA (R76). -/
  | wrD1 (data : Word32)
  /-- WR.VSTOP: byte 0 is 0xAB (R76). -/
  | wrVstop (data : Word32)
  /-- WR.RAMPMODE: byte 0 is 0xA0 (R76). -/
  | wrRampmode (data : Word32)
  /-- WR.XACTUAL: byte 0 is 0xA1 (R76). -/
  | wrXactual (data : Word32)
  /-- WR.XTARGET: byte 0 is 0xAD (R76). -/
  | wrXtarget (data : Word32)
  /-- RD.XACTUAL: byte 0 is 0x21 (R76). -/
  | rdXactual (data : Word32)
  /-- RD.X_ENC: byte 0 is 0x39 (R76). -/
  | rdXEnc (data : Word32)
  /-- WR.X_ENC: byte 0 is 0xB9 (R76). -/
  | wrXEnc (data : Word32)
  deriving DecidableEq, Repr

/-- Is the instruction a host command (a code of R80, reserved or not)? The others are wire frames. -/
def Instr.isCommand : Instr → Bool
  | .encodeFrame _ _ _ | .decodeFrame _ | .writeReg _ _ | .readReg _ | .getFlags | .setup _ _ _ _ | .moveAbs _ _ => true
  | .getPos | .setPos _ | .readEnc | .setEnc _ => true
  | .reserved0 | .reservedC | .reservedD | .reservedE | .reservedF => true
  | .frameRead _ _ | .frameWrite _ _ => false
  | .wrGconf _ | .wrChopconf _ | .wrIholdIrun _ | .wrTpowerdown _ | .wrPwmconf _ | .wrA1 _ | .wrV1 _ | .wrAmax _ => false
  | .wrVmax _ | .wrD1 _ | .wrVstop _ | .wrRampmode _ | .wrXactual _ | .wrXtarget _ | .rdXactual _ | .rdXEnc _ | .wrXEnc _ => false

/-- Is the instruction a reserved command code, which selects no operation (R82)? -/
def Instr.isReserved : Instr → Bool
  | .reserved0 | .reservedC | .reservedD | .reservedE | .reservedF => true
  | .encodeFrame _ _ _ | .decodeFrame _ | .writeReg _ _ | .readReg _ | .getFlags | .setup _ _ _ _ | .moveAbs _ _ => false
  | .getPos | .setPos _ | .readEnc | .setEnc _ => false
  | .frameRead _ _ | .frameWrite _ _ => false
  | .wrGconf _ | .wrChopconf _ | .wrIholdIrun _ | .wrTpowerdown _ | .wrPwmconf _ | .wrA1 _ | .wrV1 _ | .wrAmax _ => false
  | .wrVmax _ | .wrD1 _ | .wrVstop _ | .wrRampmode _ | .wrXactual _ | .wrXtarget _ | .rdXactual _ | .rdXEnc _ | .wrXEnc _ => false

/-- One typed operand of a host command (R81). -/
inductive Operand where
  | dir (d : Dir)
  | int (n : Int)
  | rat (q : Rat)
  | bool (b : Bool)
  | frame (f : Frame)
  deriving DecidableEq, Repr

/-- A host command as it stands at the command port: "a 4-bit command code `cmd[3:0]` with typed operands" (R79). -/
structure CommandWord where
  cmd      : BitVec 4
  operands : List Operand
  deriving DecidableEq, Repr

/-- What an instruction is encoded in. -/
inductive Encoded where
  /-- A host command word (R79). -/
  | command (w : CommandWord)
  /-- A wire frame (R70). -/
  | frame (f : Frame)
  deriving DecidableEq, Repr

/-- Why a decoder rejects what it is given. -/
inductive DecodeError where
  /-- The operands are not those R80 lists for the code. -/
  | operands (cmd : BitVec 4)
  /-- A frame is exactly 5 bytes (R12, R77); these are `n`. -/
  | frameLength (n : Nat)
  deriving DecidableEq, Repr

end Sys2Proof
end

