-- ==== Sys2Proof/Machine/State.lean ====
section
/-!
DEFINITION. The state: the axis controllers that share one bus, each with the registers of spec/10_state.md R20, the bus
lock (R33), the waiting inputs and the record of the outputs. Plain data throughout.
-/

namespace Sys2Proof.Machine

/-- Status codes (R160). The numbers are `Status.code` (Flags.lean). -/
inductive Status where
  | ok
  | eEncoding
  | eTransport
  | eScaleDomain
  | eFlagsUnset
  | eBadCommand
  deriving DecidableEq, Repr

/-- `field` of E_ENCODING (R91, R156). -/
inductive EncodingField where
  | address
  | value
  deriving DecidableEq, Repr

/-- Error information (R160, column info). -/
inductive Info where
  | encoding (field : EncodingField) (got : Int)
  | transport (e : TransportError)
  | scaleDomain (accelTime : Rat)
  | badCommand (cmd : BitVec 4)
  deriving DecidableEq, Repr

/-- The errors a command can raise (R155 to R163). -/
inductive Error where
  | encoding (field : EncodingField) (got : Int)
  | transport (e : TransportError)
  | scaleDomain (accelTime : Rat)
  | flagsUnset
  | badCommand (cmd : BitVec 4)
  deriving DecidableEq, Repr

/-- MOVE_ABS outcomes (R85, R160). -/
inductive MoveOutcome where
  | issued
  | reached
  | driverError
  | pollTimeout
  deriving DecidableEq, Repr

/-- The `cfg` field of a SETUP response (R85). -/
structure SetupResult where
  run  : Int
  hold : Int
  a    : Int
  v    : Int
  deriving DecidableEq, Repr

/-- The response record (R85). `flags` holds no value while `flagsValid` is false: none (log 20). -/
structure Response where
  status     : Status
  info       : Option Info
  value      : Option Int
  frame      : Option Frame
  dflags     : Option Byte
  outcome    : Option MoveOutcome
  cfg        : Option SetupResult
  flagsValid : Bool
  flags      : Option Byte
  deriving DecidableEq, Repr

/-- One axis controller: the table of R20 under its own names, the temporary of R21, its chip select (R64), the command
port (R83), and the model's own `wireIn`. -/
structure Axis where
  /-- The chip select this controller owns (R64): its value of the axis-to-chip map. No step writes it. -/
  chip       : Nat
  /-- `busy`: a host command is in progress. -/
  busy       : Bool
  /-- `cur`: the command being executed, with its arguments. -/
  cur        : Option Instr
  /-- `upc`: the sequencer position within `cur` (R31; the numbering is log 16). -/
  upc        : Nat
  /-- `npoll`: polls completed in the current MOVE_ABS. -/
  npoll      : Nat
  /-- `flags`: the status byte of the last successful exchange, or unset (R22, R25). -/
  flags      : Option Byte
  /-- `configured` (R27). -/
  configured : Bool
  /-- `cfg_run` (R26). -/
  cfgRun     : Option Int
  /-- `cfg_hold` (R26). -/
  cfgHold    : Option Int
  /-- `cfg_a` (R26). -/
  cfgA       : Option Int
  /-- `cfg_v` (R26). -/
  cfgV       : Option Int
  /-- `resp`: the result of the last completed command (R85). -/
  resp       : Option Response
  /-- The response frame a command holds until it is decoded (R21). -/
  rx         : Option Frame
  /-- The chip select is asserted (R62, R175). -/
  cs         : Bool
  /-- The host commands waiting at the command port, the next one first (R83). -/
  port       : List CommandWord
  /-- The model's own: a wire frame to be exchanged as an instruction of its own (log 3). -/
  wireIn     : Option Frame
  deriving DecidableEq, Repr

/-- What happens on the shared bus (R62, R86), each with the chip select of the axis that does it. -/
inductive BusEvent where
  /-- The bus lock is acquired. -/
  | acquire (chip : Nat)
  /-- `selectChip()`. -/
  | select (chip : Nat)
  /-- `exchange(out)` and its answer. -/
  | exchange (chip : Nat) (out : Frame) (answer : Answer)
  /-- `deselectChip()`. -/
  | deselect (chip : Nat)
  /-- The bus lock is released. -/
  | release (chip : Nat)
  deriving DecidableEq, Repr

/-- The machine: `P_AXES` axis controllers on one bus (R17, R172), in axis order `before ++ ax :: after`. -/
structure State where
  /-- The arguments of the model (R9). No step writes them (log 5). -/
  par     : Params
  /-- The axes below the one that has the turn. -/
  before  : List Axis
  /-- The axis that has the turn. -/
  ax      : Axis
  /-- The axes above it. -/
  after   : List Axis
  /-- The bus lock: free, or held for the axis of a chip select (R33). -/
  lock    : Option Nat
  /-- The model's own record of the bus, oldest event first (log 12). -/
  bus     : List BusEvent
  /-- The transport's answers to the coming exchanges (R107, log 9). -/
  answers : List Answer
  /-- The number of answers drawn so far. -/
  draws   : Nat
  /-- The axes that take the coming turns (R63, log 10). -/
  turns   : List Nat
  /-- The number of turns taken so far. -/
  ticks   : Nat
  deriving DecidableEq, Repr

/-- Why the machine stops. -/
inductive Fault where
  /-- Raised by a meaning whose axis is at a position that is no point of the command's pseudocode, or that needs a
  response frame or status byte no exchange has brought (R31; log 15). No state that a run from reset reaches is one.
  Safe: the machine stops where the spec gives no behaviour. -/
  | offSequence
  /-- Raised by `Axis.readRespFlags`, the host's read of `resp.flags`, while `flags_valid` is false or there is no
  response: "a model that reads it faults" (R85; log 20). No step raises it. Safe. -/
  | respFlagsUnset
  deriving DecidableEq, Repr

/-- Why a step gives no meaning. -/
inductive Refusal where
  /-- The instruction's arm is not modelled yet; raised by `exec` alone. Safe. -/
  | notModelled (mnemonic : String)
  /-- Raised by `step`: the word at the command port has operands other than R80 lists for its code, which the typed
  port of R79 and R81 cannot carry (log 19). Safe. -/
  | badOperands (cmd : BitVec 4)
  deriving DecidableEq, Repr

/-- An axis controller right after reset (R20, R175), owning the given chip select. -/
def Axis.reset (chip : Nat) : Axis :=
  { chip := chip, busy := false, cur := none, upc := 0, npoll := 0, flags := none, configured := false,
    cfgRun := none, cfgHold := none, cfgA := none, cfgV := none, resp := none,
    rx := none, cs := false, port := [], wireIn := none }

/-- The machine right after reset with the given arguments and `others + 1` axes, axis `i` owning the chip select the map
gives it (R64). -/
def State.resetWith (par : Params) (chips : ChipMap) (others : Nat) : State :=
  { par := par, before := [], ax := Axis.reset (chips.chip 0),
    after := (List.range others).map fun i => Axis.reset (chips.chip (i + 1)),
    lock := none, bus := [], answers := [], draws := 0, turns := [], ticks := 0 }

/-- The machine right after reset (R175): "Reset sends no frame"; the block waits for its first host command. -/
def State.reset : State := State.resetWith Config.params Config.chipMap Config.otherAxes

end Sys2Proof.Machine
end

