-- ==== Sys2Proof/Machine/Flags.lean ====
section
/-!
DEFINITION. The status byte (spec/30_encoding.md R74, spec/40_codec.md R94) and the numbers of the status and outcome
codes (spec/60_exceptions.md R160).
-/

namespace Sys2Proof.Machine

/-- The eight flags by name (R16, R74). -/
structure StatusFlags where
  resetOccurred   : Bool
  driverError     : Bool
  stallDetected   : Bool
  standstill      : Bool
  velocityReached : Bool
  positionReached : Bool
  stopLeft        : Bool
  stopRight       : Bool
  deriving DecidableEq, Repr

/-- `flags_of` (R94), bit 0 least significant. -/
def flagsOf (b0 : Byte) : StatusFlags :=
  { resetOccurred := b0.getLsbD 0, driverError := b0.getLsbD 1, stallDetected := b0.getLsbD 2,
    standstill := b0.getLsbD 3, velocityReached := b0.getLsbD 4, positionReached := b0.getLsbD 5,
    stopLeft := b0.getLsbD 6, stopRight := b0.getLsbD 7 }

/-- How a poll ends for a status byte: DRIVER_ERROR wins over POSITION_REACHED, no other flag ends it (R138). -/
def pollOutcome (b0 : Byte) : Option MoveOutcome :=
  if (flagsOf b0).driverError then some .driverError
  else if (flagsOf b0).positionReached then some .reached
  else none

/-- The number of a status code (R160). -/
def Status.code : Status → Nat
  | .ok => 0
  | .eEncoding => 1
  | .eTransport => 2
  | .eScaleDomain => 3
  | .eFlagsUnset => 4
  | .eBadCommand => 5

/-- The number of a MOVE_ABS outcome (R160). -/
def MoveOutcome.code : MoveOutcome → Nat
  | .issued => 0
  | .reached => 1
  | .driverError => 2
  | .pollTimeout => 3

/-- The status code of an error (R160). -/
def Error.status : Error → Status
  | .encoding _ _ => .eEncoding
  | .transport _ => .eTransport
  | .scaleDomain _ => .eScaleDomain
  | .flagsUnset => .eFlagsUnset
  | .badCommand _ => .eBadCommand

/-- The information of an error (R160); a transport error is passed on unchanged (R157). -/
def Error.info : Error → Option Info
  | .encoding field got => some (.encoding field got)
  | .transport e => some (.transport e)
  | .scaleDomain t => some (.scaleDomain t)
  | .flagsUnset => none
  | .badCommand cmd => some (.badCommand cmd)

end Sys2Proof.Machine
end

