-- ==== Sys2Proof/WellFormed.lean ====
section
/-!
DEFINITION. Which terms of `Instr` are instructions. Every operand of a host command is admitted: R81 makes `addr` and
`value` integers "so that out-of-range operands reach the codec's check". A generic frame row stands only for the
addresses that have no row of their own (log 4).
-/

namespace Sys2Proof

/-- The addresses of the write frames that have a row of their own (R76). -/
def namedWrites : List RegAddr :=
  [0x00, 0x6C, 0x10, 0x11, 0x70, 0x24, 0x25, 0x26, 0x27, 0x2A, 0x2B, 0x20, 0x21, 0x2D, 0x39]

/-- The addresses of the read frames that have a row of their own (R76). -/
def namedReads : List RegAddr := [0x21, 0x39]

/-- The well-formed instructions. -/
def Instr.wellFormed : Instr → Bool
  | .frameRead a _ => !namedReads.contains a
  | .frameWrite a _ => !namedWrites.contains a
  | .encodeFrame _ _ _ | .decodeFrame _ | .writeReg _ _ | .readReg _ | .getFlags | .setup _ _ _ _ | .moveAbs _ _ => true
  | .getPos | .setPos _ | .readEnc | .setEnc _ => true
  | .reserved0 | .reservedC | .reservedD | .reservedE | .reservedF => true
  | .wrGconf _ | .wrChopconf _ | .wrIholdIrun _ | .wrTpowerdown _ | .wrPwmconf _ | .wrA1 _ | .wrV1 _ | .wrAmax _ => true
  | .wrVmax _ | .wrD1 _ | .wrVstop _ | .wrRampmode _ | .wrXactual _ | .wrXtarget _ | .rdXactual _ | .rdXEnc _ | .wrXEnc _ => true

end Sys2Proof
end

