-- ==== Sys2Proof/Decode.lean ====
section
/-!
DEFINITION. The decoder, total on every command word and every 5 bytes, and after it the encoder, both from the encoding
tables of spec/30_encoding.md (R70, R71, R75, R76, R80, R81).
-/

namespace Sys2Proof

/-! ## Fields of a frame (R70, R75) -/

/-- The data word of a frame, bytes 1 to 4, byte 1 most significant (R11, R53). -/
def Frame.data (f : Frame) : Word32 := f.b1 ++ f.b2 ++ f.b3 ++ f.b4

/-- The frame word `b0 ++ b1 ++ b2 ++ b3 ++ b4` (R11). -/
def Frame.word (f : Frame) : BitVec 40 := f.b0 ++ f.data

/-- The direction of a command frame: `F[39]`, 1 is write (R75). -/
def Frame.dir (f : Frame) : Dir := if f.b0.msb then .write else .read

/-- The address of a command frame: `F[38:32]` (R75). -/
def Frame.addr (f : Frame) : RegAddr := f.b0.setWidth 7

/-- The frame with a given byte 0 and data word, the data big-endian in bytes 1 to 4 (R70, R72). -/
def Frame.ofParts (b0 : Byte) (data : Word32) : Frame :=
  { b0 := b0, b1 := data.extractLsb' 24 8, b2 := data.extractLsb' 16 8, b3 := data.extractLsb' 8 8,
    b4 := data.extractLsb' 0 8 }

/-- The frame with a given frame word (R11). -/
def Frame.ofWord (w : BitVec 40) : Frame := Frame.ofParts (w.extractLsb' 32 8) (w.extractLsb' 0 32)

/-- The command byte of a direction and address (R70, R71). -/
def commandByte (d : Dir) (a : RegAddr) : Byte :=
  (match d with | .write => (0x80 : Byte) | .read => 0x00) ||| a.setWidth 8

/-! ## Decoding -/

/-- The write frame's row for an address and data word (R76); the generic row for the other addresses (log 4). -/
def decodeWriteFrame (a : RegAddr) (data : Word32) : Instr :=
  match a.toNat with
  | 0x00 => .wrGconf data
  | 0x6C => .wrChopconf data
  | 0x10 => .wrIholdIrun data
  | 0x11 => .wrTpowerdown data
  | 0x70 => .wrPwmconf data
  | 0x24 => .wrA1 data
  | 0x25 => .wrV1 data
  | 0x26 => .wrAmax data
  | 0x27 => .wrVmax data
  | 0x2A => .wrD1 data
  | 0x2B => .wrVstop data
  | 0x20 => .wrRampmode data
  | 0x21 => .wrXactual data
  | 0x2D => .wrXtarget data
  | 0x39 => .wrXEnc data
  | _ => .frameWrite a data

/-- The read frame's row for an address and data word (R76); the generic row for the other addresses (log 4). -/
def decodeReadFrame (a : RegAddr) (data : Word32) : Instr :=
  match a.toNat with
  | 0x21 => .rdXactual data
  | 0x39 => .rdXEnc data
  | _ => .frameRead a data

/-- A wire frame as an instruction (R75: "Every one of the 2^40 words decodes to exactly one frame"). -/
def decodeWire (f : Frame) : Instr :=
  match f.dir with
  | .write => decodeWriteFrame f.addr f.data
  | .read => decodeReadFrame f.addr f.data

/-- A wire frame from its bytes, byte 0 first: exactly 5 of them (R12, R77). -/
def decodeBytes : List Byte → Except DecodeError Instr
  | [b0, b1, b2, b3, b4] => .ok (decodeWire ⟨b0, b1, b2, b3, b4⟩)
  | bs => .error (.frameLength bs.length)

/-- A host command word as an instruction (R80, R81). A reserved code selects no operation whatever stands beside it
(R82, R164: decided "before anything else"); `blocking` may be left out and is then true (R81). -/
def decodeCommand (w : CommandWord) : Except DecodeError Instr :=
  match w.cmd.toNat with
  | 0x0 => .ok .reserved0
  | 0x1 =>
    match w.operands with
    | [.dir d, .int a, .int v] => .ok (.encodeFrame d a v)
    | _ => .error (.operands w.cmd)
  | 0x2 =>
    match w.operands with
    | [.frame f] => .ok (.decodeFrame f)
    | _ => .error (.operands w.cmd)
  | 0x3 =>
    match w.operands with
    | [.int a, .int v] => .ok (.writeReg a v)
    | _ => .error (.operands w.cmd)
  | 0x4 =>
    match w.operands with
    | [.int a] => .ok (.readReg a)
    | _ => .error (.operands w.cmd)
  | 0x5 =>
    match w.operands with
    | [] => .ok .getFlags
    | _ => .error (.operands w.cmd)
  | 0x6 =>
    match w.operands with
    | [.rat s, .rat t, .rat r, .rat h] => .ok (.setup s t r h)
    | _ => .error (.operands w.cmd)
  | 0x7 =>
    match w.operands with
    | [.int t] => .ok (.moveAbs t true)
    | [.int t, .bool b] => .ok (.moveAbs t b)
    | _ => .error (.operands w.cmd)
  | 0x8 =>
    match w.operands with
    | [] => .ok .getPos
    | _ => .error (.operands w.cmd)
  | 0x9 =>
    match w.operands with
    | [.rat x] => .ok (.setPos x)
    | _ => .error (.operands w.cmd)
  | 0xA =>
    match w.operands with
    | [] => .ok .readEnc
    | _ => .error (.operands w.cmd)
  | 0xB =>
    match w.operands with
    | [.rat x] => .ok (.setEnc x)
    | _ => .error (.operands w.cmd)
  | 0xC => .ok .reservedC
  | 0xD => .ok .reservedD
  | 0xE => .ok .reservedE
  | _ => .ok .reservedF

/-- The decoder. -/
def decode : Encoded → Except DecodeError Instr
  | .command w => decodeCommand w
  | .frame f => .ok (decodeWire f)

/-! ## Encoding -/

/-- The frame of a direction, address and data word (R70). -/
def wireFrame (d : Dir) (a : RegAddr) (data : Word32) : Encoded := .frame (Frame.ofParts (commandByte d a) data)

/-- The word of a host command (R79, R80). -/
def commandWord (cmd : BitVec 4) (operands : List Operand) : Encoded := .command ⟨cmd, operands⟩

/-- The encoder: R80's codes and operand lists, R76's frames. -/
def encode : Instr → Encoded
  | .encodeFrame d a v => commandWord 0x1 [.dir d, .int a, .int v]
  | .decodeFrame f => commandWord 0x2 [.frame f]
  | .writeReg a v => commandWord 0x3 [.int a, .int v]
  | .readReg a => commandWord 0x4 [.int a]
  | .getFlags => commandWord 0x5 []
  | .setup s t r h => commandWord 0x6 [.rat s, .rat t, .rat r, .rat h]
  | .moveAbs t b => commandWord 0x7 [.int t, .bool b]
  | .getPos => commandWord 0x8 []
  | .setPos x => commandWord 0x9 [.rat x]
  | .readEnc => commandWord 0xA []
  | .setEnc x => commandWord 0xB [.rat x]
  | .reserved0 => commandWord 0x0 []
  | .reservedC => commandWord 0xC []
  | .reservedD => commandWord 0xD []
  | .reservedE => commandWord 0xE []
  | .reservedF => commandWord 0xF []
  | .frameRead a d => wireFrame .read a d
  | .frameWrite a d => wireFrame .write a d
  | .wrGconf d => wireFrame .write 0x00 d
  | .wrChopconf d => wireFrame .write 0x6C d
  | .wrIholdIrun d => wireFrame .write 0x10 d
  | .wrTpowerdown d => wireFrame .write 0x11 d
  | .wrPwmconf d => wireFrame .write 0x70 d
  | .wrA1 d => wireFrame .write 0x24 d
  | .wrV1 d => wireFrame .write 0x25 d
  | .wrAmax d => wireFrame .write 0x26 d
  | .wrVmax d => wireFrame .write 0x27 d
  | .wrD1 d => wireFrame .write 0x2A d
  | .wrVstop d => wireFrame .write 0x2B d
  | .wrRampmode d => wireFrame .write 0x20 d
  | .wrXactual d => wireFrame .write 0x21 d
  | .wrXtarget d => wireFrame .write 0x2D d
  | .rdXactual d => wireFrame .read 0x21 d
  | .rdXEnc d => wireFrame .read 0x39 d
  | .wrXEnc d => wireFrame .write 0x39 d

/-! ## The opcode table's words -/

/-- Operand words of zeros for a command code: 0, READ (0), false (0), and a frame of zero bytes (R81). -/
def zeroOperands (cmd : BitVec 4) : List Operand :=
  match cmd.toNat with
  | 0x1 => [.dir .read, .int 0, .int 0]
  | 0x2 => [.frame ⟨0, 0, 0, 0, 0⟩]
  | 0x3 => [.int 0, .int 0]
  | 0x4 => [.int 0]
  | 0x6 => [.rat 0, .rat 0, .rat 0, .rat 0]
  | 0x7 => [.int 0, .bool false]
  | 0x9 => [.rat 0]
  | 0xB => [.rat 0]
  | _ => []

/-- A word of the opcode table: the 40 bits of a frame row are the frame word `F` (R11); the low 4 bits of a command row
are `cmd[3:0]` (R79), its operands zeros (log 2). -/
def tableWord (nbits w : Nat) : Option Encoded :=
  if nbits = 40 then some (.frame (Frame.ofWord (BitVec.ofNat 40 w)))
  else if nbits ≤ 8 then some (.command ⟨BitVec.ofNat 4 w, zeroOperands (BitVec.ofNat 4 w)⟩)
  else none

/-- What the decoder reads from a word of the opcode table. -/
def decodeTableWord (nbits w : Nat) : Option Instr :=
  match tableWord nbits w with
  | none => none
  | some e => (decode e).toOption

end Sys2Proof
end

