-- ==== Sys2Proof/Machine/Operands.lean ====
section
/-!
DEFINITION. How operands become words: the codec (spec/40_codec.md R90, R91, R93, R97), the register addresses
(spec/10_state.md R35) and the unit scaling (spec/42_setup.md R121 to R125).
-/

namespace Sys2Proof.Machine

/-! ## The codec -/

/-- `u32` (R90), for `v` in `S32`. -/
def u32 (v : Int) : Word32 := BitVec.ofInt 32 (if v < 0 then v + 2 ^ 32 else v)

/-- `s32` (R93). -/
def s32 (r : Word32) : Int := if r.toNat ≥ 2 ^ 31 then (r.toNat : Int) - 2 ^ 32 else (r.toNat : Int)

/-- `S32` of R12. -/
def inS32 (v : Int) : Bool := decide (-2 ^ 31 ≤ v) && decide (v ≤ 2 ^ 31 - 1)

/-- An address of the register space (R50). -/
def inRegSpace (a : Int) : Bool := decide (0 ≤ a) && decide (a ≤ 0x7F)

/-- `check_encode` (R91): the error, if there is one. The address is checked first. -/
def checkEncode (addr value : Int) : Option Error :=
  if !inRegSpace addr then some (.encoding .address addr)
  else if !inS32 value then some (.encoding .value value)
  else none

/-- `encode_frame` (R97). -/
def encodeFrame (dir : Dir) (addr value : Int) : Except Error Frame :=
  match checkEncode addr value with
  | some e => .error e
  | none => .ok (Frame.ofParts (commandByte dir (BitVec.ofInt 7 addr)) (u32 value))

/-- `decode_frame` (R97): the value and the status byte. Total. -/
def decodeFrame (f : Frame) : Int × Byte := (s32 f.data, f.b0)

/-! ## Register addresses -/

end Sys2Proof.Machine

/-- The address of a named register (R35). -/
def Sys2Proof.Reg.addr : Sys2Proof.Reg → Int
  | .gconf => 0x00
  | .gstat => 0x01
  | .iholdIrun => 0x10
  | .tpowerdown => 0x11
  | .rampmode => 0x20
  | .xactual => 0x21
  | .a1 => 0x24
  | .v1 => 0x25
  | .amax => 0x26
  | .vmax => 0x27
  | .d1 => 0x2A
  | .vstop => 0x2B
  | .xtarget => 0x2D
  | .xEnc => 0x39
  | .chopconf => 0x6C
  | .pwmconf => 0x70

namespace Sys2Proof.Machine

/-! ## Scaling -/

/-- 2 to an integer power. -/
def pow2 (e : Int) : Rat := if e < 0 then 1 / ((2 ^ e.natAbs : Nat) : Rat) else ((2 ^ e.natAbs : Nat) : Rat)

/-- Round to the nearest integer, ties toward +infinity: `floor(q + 1/2)` (R121). -/
def roundHalfUp (q : Rat) : Int := (q + 1 / 2).floor

/-- Round to the nearest integer, ties to even (R121, the crosscheck setting). -/
def roundHalfEven (q : Rat) : Int :=
  let n := q.floor
  let r := q - n
  if r < 1 / 2 then n else if 1 / 2 < r then n + 1 else if n % 2 = 0 then n else n + 1

/-- `rnd` (R121). -/
def rnd (p : Params) (q : Rat) : Int :=
  match p.round with
  | .halfUp => roundHalfUp q
  | .halfEven => roundHalfEven q

/-- The exponent `e` with `2^e ≤ |q| < 2^(e+1)`, for `q` not 0. -/
def binaryExponent (q : Rat) : Int :=
  let k : Int := (Nat.log2 q.num.natAbs : Int) - (Nat.log2 q.den : Int)
  if (q.num.natAbs : Rat) / (q.den : Rat) < pow2 k then k - 1 else k

/-- The nearest IEEE 754 binary64 value, ties to even (D1); outside the format a free value (log 18). -/
def toBinary64 (q : Rat) : Rat :=
  if q = 0 then 0
  else
    let e := max (binaryExponent q - 52) (-1074)
    let r := (roundHalfEven (q / pow2 e) : Rat) * pow2 e
    if pow2 1024 ≤ r ∨ r ≤ -pow2 1024 then Config.binary64Overflow q else r

/-- The number a scaling operand or intermediate result stands for under `P_NUMERICS` (R9, D1). -/
def num (p : Params) (q : Rat) : Rat :=
  match p.numerics with
  | .exact => q
  | .binary64 => toBinary64 q

/-- `clamp` (R13). -/
def clamp (n lo hi : Int) : Int := min hi (max lo n)

/-- `ccode` (R122): `clamp(rnd(ma * 31 / 3100), 1, 31)`. -/
def ccode (p : Params) (ma : Rat) : Int := clamp (rnd p (num p (num p (num p ma * 31) / 3100))) 1 31

/-- `ihold_irun` (R123): `0x070000 | (run << 8) | hold`. -/
def iholdIrun (run hold : Int) : Int := ((0x070000 ||| (run.toNat <<< 8) ||| hold.toNat : Nat) : Int)

/-- `accel` (R124): `rnd(speed / t * 1527/100000)`, for `t` not 0. -/
def accel (p : Params) (speed t : Rat) : Int :=
  rnd p (num p (num p (num p speed / num p t) * num p (1527 / 100000)))

/-- `vel` (R125): `rnd(speed * 13981/10000)`. -/
def vel (p : Params) (speed : Rat) : Int := rnd p (num p (num p speed * num p (13981 / 10000)))

end Sys2Proof.Machine
end

