-- ==== Sys2Proof/Machine/Ops.lean ====
section
/-!
DEFINITION. The shared operations: ending a command with a response or an error (spec/10_state.md R30, spec/60_exceptions.md
R159), the physical exchange and the logical write and read (spec/41_transactions.md R106 to R110), accepting a command
(R30, R83), and whose turn it is (spec/60_exceptions.md R172). Each acts for the axis that has the turn.
-/

namespace Sys2Proof.Machine

/-! ## Ending a command -/

/-- A response with status OK, the two flag fields of the axis, and every other field none (R85). -/
def Response.blank (a : Axis) : Response :=
  { status := .ok, info := none, value := none, frame := none, dflags := none, outcome := none, cfg := none,
    flagsValid := a.flags.isSome, flags := a.flags }

/-- Completion (R30): `resp` is set, then `busy <- false` and `cur <- none`. The temporaries end with the command (R21);
`upc` and `npoll` keep their values (log 16). -/
def State.finish (r : Response) (s : State) : State :=
  { s with ax := { s.ax with resp := some r, busy := false, cur := none, rx := none } }

/-- `respond` (R13, R85): the given fields, status OK and the two flag fields. -/
def State.respond (fields : Response → Response) (s : State) : State := s.finish (fields (Response.blank s.ax))

/-- `raise` (R13, R159), the block's taking of an exception: the command ends at once; `resp` holds the status, the
information and the current flags, and no other field. There is no vector, no handler, no mode change and no mask; after
it the block is idle, which is all the return there is (R166). -/
def State.raise (e : Error) (s : State) : State :=
  s.finish { Response.blank s.ax with status := e.status, info := e.info }

/-- The host's read of `resp.flags`: it faults while the field holds no value (R85; 93_implementation_defined.md item 24). -/
def Axis.readRespFlags (a : Axis) : Except Fault Byte :=
  match a.resp with
  | some r => if r.flagsValid then (match r.flags with | some b => .ok b | none => .error .respFlagsUnset)
              else .error .respFlagsUnset
  | none => .error .respFlagsUnset

/-! ## The physical exchange -/

/-- The transport's answer to the next exchange (R107): the next input, or a free value. -/
def State.answer (s : State) : Answer :=
  match s.answers with
  | a :: _ => a
  | [] => Config.answer s.draws

/-- Step 1 of R62: the bus lock is acquired. -/
def State.acquire (s : State) : State :=
  { s with lock := some s.ax.chip, bus := s.bus ++ [.acquire s.ax.chip] }

/-- Step 2 of R62: `selectChip()`. -/
def State.selectChip (s : State) : State :=
  { s with ax := { s.ax with cs := true }, bus := s.bus ++ [.select s.ax.chip] }

/-- Step 3 of R62: `exchange(out)`; the answer is drawn. -/
def State.exchange (out : Frame) (s : State) : State :=
  { s with bus := s.bus ++ [.exchange s.ax.chip out s.answer], answers := s.answers.tail, draws := s.draws + 1 }

/-- Step 4 of R62: `deselectChip()`. -/
def State.deselectChip (s : State) : State :=
  { s with ax := { s.ax with cs := false }, bus := s.bus ++ [.deselect s.ax.chip] }

/-- Step 5 of R62: the bus lock is released. -/
def State.release (s : State) : State := { s with lock := none, bus := s.bus ++ [.release s.ax.chip] }

/-- Steps 1 to 5 of R62, one indivisible step. Steps 4 and 5 happen whatever the answer is (R184). -/
def State.busCycle (out : Frame) (s : State) : State :=
  s.acquire.selectChip.exchange out |>.deselectChip.release

/-- The events of one physical exchange, in order (R62). -/
def exchangeEvents (chip : Nat) (out : Frame) (answer : Answer) : List BusEvent :=
  [.acquire chip, .select chip, .exchange chip out answer, .deselect chip, .release chip]

/-- `XCHG(out)` (R106): a transport error is raised, with `flags` as they were (R157); a response frame updates `flags`
with its status byte (R108). `keep` is what the axis keeps of the response frame besides. -/
def State.xchgKeeping (keep : Frame → Axis → Axis) (out : Frame) (s : State) : State :=
  match s.answer with
  | .error e => (s.busCycle out).raise (.transport e)
  | .frame r =>
    let t := s.busCycle out
    { t with ax := { keep r t.ax with flags := some r.b0 } }

/-- `XCHG(out)` within a command, after which the sequencer is at `pos`: the response frame is held in `rx` (R21). -/
def State.xchg (out : Frame) (pos : Nat) (s : State) : State :=
  s.xchgKeeping (fun r a => { a with rx := some r, upc := pos }) out

/-- A step that exchanges "is enabled only while the lock is free" (R106); while another axis holds it the axis waits
(R62) and nothing changes (log 13). `t` is the state after the step. -/
def State.whenBusFree (t s : State) : State := if s.lock.isNone then t else s

/-! ## Logical write and read -/

/-- `LW(a, v)` (R109), after which the sequencer is at `pos`. `latched` is `s` with what the same step latches before the
write. An encoding error is raised before any bus activity. -/
def State.logicalWrite (s : State) (a v : Int) (pos : Nat) (latched : State) : State :=
  match encodeFrame .write a v with
  | .error e => latched.raise e
  | .ok out => (latched.xchg out pos).whenBusFree s

/-- One of the two exchanges of `LR(a)` (R110), after which the sequencer is at `pos`. Both send the same read frame,
with data 0; the address is checked before the first. -/
def State.readExchange (s : State) (a : Int) (pos : Nat) : State :=
  match encodeFrame .read a 0 with
  | .error e => s.raise e
  | .ok out => (s.xchg out pos).whenBusFree s

/-! ## Command shapes -/

/-- The outcome type of every meaning. -/
abbrev Result := Host.Outcome State Fault Refusal

/-- A command that is one step without an exchange: its only position is 0. -/
def oneStep (f : State → State) (s : State) : Result :=
  if s.ax.upc = 0 then .next (f s) else .fault .offSequence

/-- A command that is a list of logical writes, one step each, then `respond()` (R111, R144, R146). -/
def writeSequence (ws : List (Int × Int)) (s : State) : Result :=
  match ws[s.ax.upc]? with
  | some w => .next (s.logicalWrite w.1 w.2 (s.ax.upc + 1) s)
  | none => if s.ax.upc = ws.length then .next (s.respond id) else .fault .offSequence

/-- A command that is one logical read, then `respond(value = v)` (R112, R143, R145): two exchanges, and the value is
decoded from the second response. -/
def readSequence (a : Int) (s : State) : Result :=
  match s.ax.upc with
  | 0 => .next (s.readExchange a 1)
  | 1 => .next (s.readExchange a 2)
  | 2 =>
    match s.ax.rx with
    | some r => .next (s.respond fun q => { q with value := some (decodeFrame r).1 })
    | none => .fault .offSequence
  | _ => .fault .offSequence

/-- A wire frame as an instruction: one physical exchange of it (R3, R106) outside any command, so that the axis keeps
nothing of the response but `flags` (log 3). -/
def exchangeFrame (out : Frame) (s : State) : Result := .next ((s.xchgKeeping (fun _ a => a) out).whenBusFree s)

/-! ## Accepting a command -/

/-- Acceptance (R30): `cur <- command`, `busy <- true`, `upc <- 0`, `npoll <- 0`; the command leaves the port. A reserved
code selects no operation and changes no state other than `resp` (R82): it leaves `upc` and `npoll`, and its one step ends
`cur` and `busy` again. -/
def State.accept (i : Instr) (s : State) : State :=
  { s with ax := { s.ax with cur := some i, busy := true, upc := if i.isReserved then s.ax.upc else 0,
                             npoll := if i.isReserved then s.ax.npoll else 0, port := s.ax.port.tail } }

/-- What the axis that has the turn is about to do. -/
inductive Fetched where
  /-- Run a controller step of the instruction in the state. -/
  | run (i : Instr) (s : State)
  /-- No step is enabled: the turn passes (log 14). -/
  | wait
  /-- The word at the command port is no command. -/
  | refuse (r : Refusal)

/-- What the axis that has the turn is about to do: go on with the command in progress; else exchange the waiting wire
frame (log 3); else accept the next host command (R30, R83: only while not busy, in order); else wait for one (R175). -/
def State.fetch (s : State) : Fetched :=
  if s.ax.busy then
    match s.ax.cur with
    | some i => .run i s
    | none => .wait
  else
    match s.ax.wireIn with
    | some f => if s.lock.isNone then .run (decodeWire f) { s with ax := { s.ax with wireIn := none } } else .wait
    | none =>
      match s.ax.port with
      | [] => .wait
      | w :: _ =>
        match decodeCommand w with
        | .ok i => .run i (s.accept i)
        | .error _ => .refuse (.badOperands w.cmd)

/-! ## Whose turn it is -/

/-- The axes, in axis order. -/
def State.axes (s : State) : List Axis := s.before ++ s.ax :: s.after

/-- The axis that takes the next step (R63, R172): the next input, or a free value. -/
def State.turn (s : State) : Nat :=
  match s.turns with
  | k :: _ => k
  | [] => Config.turn s.ticks

/-- The state with the turn at axis `k`; a number that names no axis leaves the turn where it is (log 10). -/
def State.focus (k : Nat) (s : State) : State :=
  match s.axes.drop k with
  | a :: rest => { s with before := s.axes.take k, ax := a, after := rest }
  | [] => s

/-- The next axis takes the turn. -/
def State.takeTurn (s : State) : State := { s with turns := s.turns.tail, ticks := s.ticks + 1 }.focus s.turn

/-! ## Placing an instruction -/

/-- The state in which the axis that has the turn keeps it, is idle with the bus free, and is about to run the encoded
instruction: a command stands first at its port, a frame in its `wireIn` (log 25). -/
def State.place (e : Encoded) (s : State) : State :=
  match e with
  | .command w =>
    { s with turns := s.before.length :: s.turns, lock := none,
             ax := { s.ax with busy := false, cur := none, wireIn := none, port := w :: s.ax.port } }
  | .frame f =>
    { s with turns := s.before.length :: s.turns, lock := none,
             ax := { s.ax with busy := false, cur := none, wireIn := some f } }

end Sys2Proof.Machine
end

