-- ==== Sys2Proof/Machine/Codec.lean ====
section
/-!
DEFINITION. The codec commands and GET_FLAGS: no exchange (spec/40_codec.md R92, R95, spec/41_transactions.md R113).
-/

namespace Sys2Proof.Machine

/-- ENCODE_FRAME (R92): the value is encoded for both directions (R98). -/
def execEncodeFrame (dir : Dir) (addr value : Int) (s : State) : Result :=
  oneStep (fun s =>
    match encodeFrame dir addr value with
    | .error e => s.raise e
    | .ok f => s.respond fun q => { q with frame := some f }) s

/-- DECODE_FRAME (R95): the decoded status goes to `dflags`, not to `flags`. -/
def execDecodeFrame (frame : Frame) (s : State) : Result :=
  oneStep (State.respond fun q => { q with value := some (decodeFrame frame).1, dflags := some (decodeFrame frame).2 }) s

/-- GET_FLAGS (R113): E_FLAGS_UNSET while `flags` is unset (R162). -/
def execGetFlags (s : State) : Result :=
  oneStep (fun s =>
    match s.ax.flags with
    | none => s.raise .flagsUnset
    | some _ => s.respond id) s

end Sys2Proof.Machine
end

