-- ==== Sys2Proof/Machine/Frames.lean ====
section
/-!
DEFINITION. The wire frames as instructions (spec/00_scope.md R3, spec/30_encoding.md R70, R76): one physical exchange of the frame
(spec/41_transactions.md R106, R108).
-/

namespace Sys2Proof.Machine

/-- A read frame of any address and data word (R70). -/
def execFrameRead (addr : RegAddr) (data : Word32) (s : State) : Result :=
  exchangeFrame (Frame.ofParts (commandByte .read addr) data) s

/-- A write frame of any address and data word (R70). -/
def execFrameWrite (addr : RegAddr) (data : Word32) (s : State) : Result :=
  exchangeFrame (Frame.ofParts (commandByte .write addr) data) s

/-- WR.GCONF (R76). -/
def execWrGconf (data : Word32) (s : State) : Result :=
  exchangeFrame (Frame.ofParts 0x80 data) s

/-- WR.CHOPCONF (R76). -/
def execWrChopconf (data : Word32) (s : State) : Result :=
  exchangeFrame (Frame.ofParts 0xEC data) s

/-- WR.IHOLD_IRUN (R76). -/
def execWrIholdIrun (data : Word32) (s : State) : Result :=
  exchangeFrame (Frame.ofParts 0x90 data) s

/-- WR.TPOWERDOWN (R76). -/
def execWrTpowerdown (data : Word32) (s : State) : Result :=
  exchangeFrame (Frame.ofParts 0x91 data) s

/-- WR.PWMCONF (R76). -/
def execWrPwmconf (data : Word32) (s : State) : Result :=
  exchangeFrame (Frame.ofParts 0xF0 data) s

/-- WR.A1 (R76). -/
def execWrA1 (data : Word32) (s : State) : Result :=
  exchangeFrame (Frame.ofParts 0xA4 data) s

/-- WR.V1 (R76). -/
def execWrV1 (data : Word32) (s : State) : Result :=
  exchangeFrame (Frame.ofParts 0xA5 data) s

/-- WR.AMAX (R76). -/
def execWrAmax (data : Word32) (s : State) : Result :=
  exchangeFrame (Frame.ofParts 0xA6 data) s

/-- WR.VMAX (R76). -/
def execWrVmax (data : Word32) (s : State) : Result :=
  exchangeFrame (Frame.ofParts 0xA7 data) s

/-- WR.D1 (R76). -/
def execWrD1 (data : Word32) (s : State) : Result :=
  exchangeFrame (Frame.ofParts 0xAA data) s

/-- WR.VSTOP (R76). -/
def execWrVstop (data : Word32) (s : State) : Result :=
  exchangeFrame (Frame.ofParts 0xAB data) s

/-- WR.RAMPMODE (R76). -/
def execWrRampmode (data : Word32) (s : State) : Result :=
  exchangeFrame (Frame.ofParts 0xA0 data) s

/-- WR.XACTUAL (R76). -/
def execWrXactual (data : Word32) (s : State) : Result :=
  exchangeFrame (Frame.ofParts 0xA1 data) s

/-- WR.XTARGET (R76). -/
def execWrXtarget (data : Word32) (s : State) : Result :=
  exchangeFrame (Frame.ofParts 0xAD data) s

/-- RD.XACTUAL (R76). -/
def execRdXactual (data : Word32) (s : State) : Result :=
  exchangeFrame (Frame.ofParts 0x21 data) s

/-- RD.X_ENC (R76). -/
def execRdXEnc (data : Word32) (s : State) : Result :=
  exchangeFrame (Frame.ofParts 0x39 data) s

/-- WR.X_ENC (R76). -/
def execWrXEnc (data : Word32) (s : State) : Result :=
  exchangeFrame (Frame.ofParts 0xB9 data) s

end Sys2Proof.Machine
end

