-- ==== Sys2Proof/Machine/Motion.lean ====
section
/-!
DEFINITION. Absolute moves, position and encoder (spec/43_motion.md R135 to R147).
-/

namespace Sys2Proof.Machine

/-! MOVE_ABS's positions are the states of R147: 0 `M_TGT`, 1 `M_PR1`, 2 `M_PR2`, 3 `M_NB`, 4 `M_PL1`, 5 `M_PL2`, 6 `M_CHK`. -/

/-- `M_PL1` (R147): the poll-limit check at the loop head (R141), else the first exchange of a poll. -/
def movePoll (s : State) : State :=
  if s.ax.npoll ∈ s.par.pollLimit then s.respond fun q => { q with outcome := some .pollTimeout }
  else s.readExchange Reg.xactual.addr 5

/-- `M_CHK` (R147) for the status byte of the poll's second exchange: the poll is counted (R137), a terminal condition ends
the command with status OK (R138), else `wait()`, which changes nothing (R140), and back to the loop head. -/
def moveCheck (b : Byte) (s : State) : State :=
  let t := { s with ax := { s.ax with npoll := s.ax.npoll + 1 } }
  match pollOutcome b with
  | some o => t.respond fun q => { q with outcome := some o }
  | none => { t with ax := { t.ax with upc := 4 } }

/-- MOVE_ABS (R135, R147). -/
def execMoveAbs (target : Int) (blocking : Bool) (s : State) : Result :=
  match s.ax.upc with
  | 0 => .next (s.logicalWrite Reg.xtarget.addr target 1 s)
  | 1 => .next (s.readExchange Reg.xactual.addr 2)
  | 2 => .next (s.readExchange Reg.xactual.addr (if blocking then 4 else 3))
  | 3 => .next (s.respond fun q => { q with outcome := some .issued })
  | 4 => .next (movePoll s)
  | 5 => .next (s.readExchange Reg.xactual.addr 6)
  | 6 =>
    match s.ax.flags with
    | some b => .next (moveCheck b s)
    | none => .fault .offSequence
  | _ => .fault .offSequence

/-- GET_POS (R143). -/
def execGetPos (s : State) : Result := readSequence Reg.xactual.addr s

/-- SET_POS (R144): `x` is never read; 0 is written to XACTUAL, then to XTARGET (R186). -/
def execSetPos (_x : Rat) (s : State) : Result :=
  writeSequence [(Reg.xactual.addr, 0), (Reg.xtarget.addr, 0)] s

/-- READ_ENC (R145). -/
def execReadEnc (s : State) : Result := readSequence Reg.xEnc.addr s

/-- SET_ENC (R146). -/
def execSetEnc (x : Rat) (s : State) : Result := writeSequence [(Reg.xEnc.addr, rnd s.par (num s.par x))] s

end Sys2Proof.Machine
end

