-- ==== Sys2Proof/Machine/Raw.lean ====
section
/-!
DEFINITION. The raw register commands (spec/41_transactions.md R111, R112): any address 0x00 to 0x7F.
-/

namespace Sys2Proof.Machine

/-- WRITE_REG (R111). -/
def execWriteReg (addr value : Int) (s : State) : Result := writeSequence [(addr, value)] s

/-- READ_REG (R112). -/
def execReadReg (addr : Int) (s : State) : Result := readSequence addr s

end Sys2Proof.Machine
end

