-- ==== Sys2Proof/Machine/Reserved.lean ====
section
/-!
DEFINITION. The reserved command codes (spec/30_encoding.md R82, spec/60_exceptions.md R163): E_BAD_COMMAND with the code, no
exchange, no state change other than `resp`.
-/

namespace Sys2Proof.Machine

/-- A reserved code is accepted: E_BAD_COMMAND at once (R82), "decided at acceptance, before anything else" (R164), so
whatever the sequencer position is. -/
def badCommand (cmd : BitVec 4) (s : State) : Result := .next (s.raise (.badCommand cmd))

/-- Code 0x0 (R82). -/
def execReserved0 (s : State) : Result := badCommand 0x0 s

/-- Code 0xC (R82). -/
def execReservedC (s : State) : Result := badCommand 0xC s

/-- Code 0xD (R82). -/
def execReservedD (s : State) : Result := badCommand 0xD s

/-- Code 0xE (R82). -/
def execReservedE (s : State) : Result := badCommand 0xE s

/-- Code 0xF (R82). -/
def execReservedF (s : State) : Result := badCommand 0xF s

end Sys2Proof.Machine
end

