-- ==== Sys2Proof/Machine/Setup.lean ====
section
/-!
DEFINITION. SETUP (spec/42_setup.md R126 to R130): fourteen logical writes, one step each, and a last step that responds.
-/

namespace Sys2Proof.Machine

/-- What SETUP computes from its operands (R126 steps 3 and 6). -/
def setupResult (p : Params) (speed accelTime irunMa iholdMa : Rat) : SetupResult :=
  { run := ccode p irunMa, hold := ccode p iholdMa, a := accel p speed accelTime, v := vel p speed }

/-- The write sequence of R127: register and value, in bus order. Position `k` is before write `k + 1`. -/
def setupWrites (p : Params) (c : SetupResult) : List (Reg × Int) :=
  [(.gconf, 0), (.chopconf, s32 p.chopconf), (.iholdIrun, iholdIrun c.run c.hold), (.tpowerdown, 10), (.pwmconf, 0),
    (.a1, c.a), (.v1, c.v), (.amax, c.a), (.vmax, c.v), (.d1, c.a), (.vstop, 10), (.rampmode, 0), (.xactual, 0),
    (.xtarget, 0)]

/-- What the step at a position latches before its write (R128): `configured` at the start, the current codes before
write 3, the motion values before write 6. -/
def setupLatch (c : SetupResult) (pos : Nat) (a : Axis) : Axis :=
  match pos with
  | 0 => { a with configured := false }
  | 2 => { a with cfgRun := some c.run, cfgHold := some c.hold }
  | 5 => { a with cfgA := some c.a, cfgV := some c.v }
  | _ => a

/-- SETUP (R126). `speed / accel_time` has no value where the divisor is 0: E_SCALE_DOMAIN after the five writes of steps
1 to 5, before step 6 computes or latches anything (R161). -/
def execSetup (speed accelTime irunMa iholdMa : Rat) (s : State) : Result :=
  let c := setupResult s.par speed accelTime irunMa iholdMa
  match (setupWrites s.par c)[s.ax.upc]? with
  | some w =>
    if s.ax.upc = 5 ∧ num s.par accelTime = 0 then .next (s.raise (.scaleDomain accelTime))
    else .next (s.logicalWrite w.1.addr w.2 (s.ax.upc + 1) { s with ax := setupLatch c s.ax.upc s.ax })
  | none =>
    if s.ax.upc = 14 then
      .next ({ s with ax := { s.ax with configured := true } }.respond fun q => { q with cfg := some c })
    else .fault .offSequence

end Sys2Proof.Machine
end

