-- ==== Sys2Proof/Machine/Dispatch.lean ====
section
/-!
DEFINITION. One arm per instruction: a controller step of it (spec/10_state.md R31).
-/

namespace Sys2Proof.Machine

/-- A controller step of instruction `i` for the axis that has the turn. -/
def exec (i : Instr) (s : State) : Host.Outcome State Fault Refusal :=
  match i with
  | .encodeFrame dir addr value => Sys2Proof.Machine.execEncodeFrame dir addr value s
  | .decodeFrame frame => Sys2Proof.Machine.execDecodeFrame frame s
  | .writeReg addr value => Sys2Proof.Machine.execWriteReg addr value s
  | .readReg addr => Sys2Proof.Machine.execReadReg addr s
  | .getFlags => Sys2Proof.Machine.execGetFlags s
  | .setup speed accelTime irunMa iholdMa => Sys2Proof.Machine.execSetup speed accelTime irunMa iholdMa s
  | .moveAbs target blocking => Sys2Proof.Machine.execMoveAbs target blocking s
  | .getPos => Sys2Proof.Machine.execGetPos s
  | .setPos x => Sys2Proof.Machine.execSetPos x s
  | .readEnc => Sys2Proof.Machine.execReadEnc s
  | .setEnc x => Sys2Proof.Machine.execSetEnc x s
  | .reserved0 => Sys2Proof.Machine.execReserved0 s
  | .reservedC => Sys2Proof.Machine.execReservedC s
  | .reservedD => Sys2Proof.Machine.execReservedD s
  | .reservedE => Sys2Proof.Machine.execReservedE s
  | .reservedF => Sys2Proof.Machine.execReservedF s
  | .frameRead addr data => Sys2Proof.Machine.execFrameRead addr data s
  | .frameWrite addr data => Sys2Proof.Machine.execFrameWrite addr data s
  | .wrGconf data => Sys2Proof.Machine.execWrGconf data s
  | .wrChopconf data => Sys2Proof.Machine.execWrChopconf data s
  | .wrIholdIrun data => Sys2Proof.Machine.execWrIholdIrun data s
  | .wrTpowerdown data => Sys2Proof.Machine.execWrTpowerdown data s
  | .wrPwmconf data => Sys2Proof.Machine.execWrPwmconf data s
  | .wrA1 data => Sys2Proof.Machine.execWrA1 data s
  | .wrV1 data => Sys2Proof.Machine.execWrV1 data s
  | .wrAmax data => Sys2Proof.Machine.execWrAmax data s
  | .wrVmax data => Sys2Proof.Machine.execWrVmax data s
  | .wrD1 data => Sys2Proof.Machine.execWrD1 data s
  | .wrVstop data => Sys2Proof.Machine.execWrVstop data s
  | .wrRampmode data => Sys2Proof.Machine.execWrRampmode data s
  | .wrXactual data => Sys2Proof.Machine.execWrXactual data s
  | .wrXtarget data => Sys2Proof.Machine.execWrXtarget data s
  | .rdXactual data => Sys2Proof.Machine.execRdXactual data s
  | .rdXEnc data => Sys2Proof.Machine.execRdXEnc data s
  | .wrXEnc data => Sys2Proof.Machine.execWrXEnc data s

end Sys2Proof.Machine
end

