-- ==== Sys2Proof/Machine/Step.lean ====
section
/-!
DEFINITION. One step of the machine: the axis whose turn it is takes one controller step (spec/10_state.md R31,
spec/60_exceptions.md R172).
-/

namespace Sys2Proof.Machine

/-- One controller step of the axis that has the turn, or the passing of its turn. -/
def axisStep (s : State) : Host.Outcome State Fault Refusal :=
  match s.fetch with
  | .run i t => exec i t
  | .wait => .next s
  | .refuse r => .refused r

/-- One step: the turn passes to the next axis, which takes a controller step. -/
def step (s : State) : Host.Outcome State Fault Refusal := axisStep s.takeTurn

/-- The state in which the very next step runs the instruction of an opcode-table word (log 25). -/
def State.withFetchWord (s : State) (nbits w : Nat) : State :=
  match tableWord nbits w with
  | some e => s.place e
  | none => s

end Sys2Proof.Machine
end

