-- ==== Sys2Proof/Safety.lean ====
section
/-!
DEFINITION. The terms claims are stated in: what an exchange and a response leave, written out; runs of one axis; what is
on the bus; and the invariant of the machine.
-/

namespace Sys2Proof.Machine

/-! ## States written out -/

/-- `s` after a physical exchange of `out` that the transport answered with the frame `r`, the sequencer at `pos`
(R62, R106, R108). -/
def State.afterFrame (s : State) (out r : Frame) (pos : Nat) : State :=
  { s with
    lock := none
    bus := s.bus ++ [.acquire s.ax.chip, .select s.ax.chip, .exchange s.ax.chip out (.frame r),
      .deselect s.ax.chip, .release s.ax.chip]
    answers := s.answers.tail
    draws := s.draws + 1
    ax := { s.ax with flags := some r.b0, rx := some r, upc := pos, cs := false } }

/-- `s` after a physical exchange of `out` outside any command, answered by the frame `r` (R62, R106, R108). -/
def State.afterWireFrame (s : State) (out r : Frame) : State :=
  { s with
    lock := none
    bus := s.bus ++ [.acquire s.ax.chip, .select s.ax.chip, .exchange s.ax.chip out (.frame r),
      .deselect s.ax.chip, .release s.ax.chip]
    answers := s.answers.tail
    draws := s.draws + 1
    ax := { s.ax with flags := some r.b0, cs := false } }

/-- `s` after the response `r`: `resp` is set, and the axis is idle (R30). -/
def State.afterResponse (s : State) (r : Response) : State :=
  { s with ax := { s.ax with resp := some r, busy := false, cur := none, rx := none } }

/-- The response of a command that ends well while `flags` is as given, no result field set (R85). -/
def Response.good (flags : Option Byte) : Response :=
  { status := .ok, info := none, value := none, frame := none, dflags := none, outcome := none, cfg := none,
    flagsValid := flags.isSome, flags := flags }

/-- The response of a command that raises an error while `flags` is as given (R85, R159). -/
def Response.bad (status : Status) (info : Option Info) (flags : Option Byte) : Response :=
  { status := status, info := info, value := none, frame := none, dflags := none, outcome := none, cfg := none,
    flagsValid := flags.isSome, flags := flags }

/-- `s` after a physical exchange of `out` that ended in the transport error `e`: the lock and the chip select are
released, `flags` is as before, and the command has ended with E_TRANSPORT (R157, R159, R184). -/
def State.afterTransportError (s : State) (out : Frame) (e : TransportError) : State :=
  { s with
    lock := none
    bus := s.bus ++ [.acquire s.ax.chip, .select s.ax.chip, .exchange s.ax.chip out (.error e),
      .deselect s.ax.chip, .release s.ax.chip]
    answers := s.answers.tail
    draws := s.draws + 1
    ax := { s.ax with resp := some (Response.bad .eTransport (some (.transport e)) s.ax.flags), busy := false,
                      cur := none, rx := none, cs := false } }

/-- The write frame of an address and value: command byte `0x80 | a`, data `u32(v)` (R71, R72). -/
def writeFrame (a v : Int) : Frame := Frame.ofParts (0x80 ||| BitVec.ofInt 8 a) (u32 v)

/-- The read frame of an address: command byte `a`, data 0 (R71, R72). -/
def readFrame (a : Int) : Frame := ⟨BitVec.ofInt 8 a, 0, 0, 0, 0⟩

/-! ## Runs of one axis, and the bus -/

/-- `n` controller steps of the axis that has the turn, with no other axis in between. -/
def axisSteps : Nat → State → Result
  | 0, s => .next s
  | n + 1, s =>
    match axisStep s with
    | .next t => axisSteps n t
    | .fault f => .fault f
    | .refused r => .refused r

/-- The frames of the exchanges among bus events, in order. -/
def sentFrames (es : List BusEvent) : List Frame :=
  es.filterMap fun e => match e with | .exchange _ out _ => some out | _ => none

/-- The bus shows whole physical exchanges only, each in the order of R62 for one chip select. -/
def bracketed : List BusEvent → Bool
  | [] => true
  | .acquire c :: .select c1 :: .exchange c2 _ _ :: .deselect c3 :: .release c4 :: rest =>
    decide (c1 = c ∧ c2 = c ∧ c3 = c ∧ c4 = c) && bracketed rest
  | _ => false

/-! ## The invariant -/

end Sys2Proof.Machine

/-- The last position of a command's pseudocode: the step that responds (R31). Wire frames have none. -/
def Sys2Proof.Instr.lastPosition : Sys2Proof.Instr → Nat
  | .encodeFrame _ _ _ | .decodeFrame _ | .getFlags => 0
  | .reserved0 | .reservedC | .reservedD | .reservedE | .reservedF => 0
  | .writeReg _ _ | .setEnc _ => 1
  | .readReg _ | .getPos | .setPos _ | .readEnc => 2
  | .setup _ _ _ _ => 14
  | .moveAbs _ _ => 6
  | .frameRead _ _ | .frameWrite _ _ => 0
  | .wrGconf _ | .wrChopconf _ | .wrIholdIrun _ | .wrTpowerdown _ | .wrPwmconf _ | .wrA1 _ | .wrV1 _ | .wrAmax _ => 0
  | .wrVmax _ | .wrD1 _ | .wrVstop _ | .wrRampmode _ | .wrXactual _ | .wrXtarget _ | .rdXactual _ | .rdXEnc _ | .wrXEnc _ => 0

namespace Sys2Proof.Machine

/-- A response record is one a rule can set (R85): the flag fields go together, a value is in `S32`, and an error sets no
result field. -/
structure Response.Inv (r : Response) : Prop where
  flags_valid : r.flagsValid = r.flags.isSome
  value_range : ∀ v ∈ r.value, inS32 v = true
  error_bare : r.status ≠ .ok →
    r.value = none ∧ r.frame = none ∧ r.dflags = none ∧ r.outcome = none ∧ r.cfg = none

/-- What holds of an axis controller between two steps. -/
structure Axis.Inv (p : Params) (a : Axis) : Prop where
  /-- `busy` says whether there is a current command (R30). -/
  busy_cur : a.busy = a.cur.isSome
  /-- The current command is a host command, and `upc` a point of its pseudocode (R20, R31). -/
  position : ∀ i ∈ a.cur, i.isCommand = true ∧ a.upc ≤ i.lastPosition
  /-- Once the command has exchanged, the last response frame is held and its status byte is in `flags` (R21, R108). -/
  held : ∀ i ∈ a.cur, 1 ≤ a.upc → ∃ r, a.rx = some r ∧ a.flags = some r.b0
  /-- An idle axis holds no temporary (R21). -/
  idle_bare : a.busy = false → a.rx = none
  /-- The chip select is deasserted between exchanges (R62). -/
  deselected : a.cs = false
  /-- `cfg_run` is 1..31 or unset (R20). -/
  run_range : ∀ n ∈ a.cfgRun, 1 ≤ n ∧ n ≤ 31
  /-- `cfg_hold` is 1..31 or unset (R20). -/
  hold_range : ∀ n ∈ a.cfgHold, 1 ≤ n ∧ n ≤ 31
  /-- `cfg_run` and `cfg_hold` are latched together, and so are `cfg_a` and `cfg_v` (R128). -/
  latched_together : a.cfgRun.isSome = a.cfgHold.isSome ∧ a.cfgA.isSome = a.cfgV.isSome
  /-- A configured axis holds all of AxisConfig (R26, R27). -/
  configured_full : a.configured = true → a.cfgRun.isSome = true ∧ a.cfgA.isSome = true
  /-- What a SETUP in progress has latched (R128). -/
  setup_latches : ∀ speed t run hold, a.cur = some (.setup speed t run hold) →
    (1 ≤ a.upc → a.configured = false) ∧
    (3 ≤ a.upc → a.cfgRun = some (ccode p run) ∧ a.cfgHold = some (ccode p hold)) ∧
    (6 ≤ a.upc → a.cfgA = some (accel p speed t) ∧ a.cfgV = some (vel p speed))
  /-- The polls of a MOVE_ABS stay within `P_POLL_LIMIT` (R141). -/
  polls : ∀ n ∈ p.pollLimit, a.npoll ≤ n ∧
    ∀ target blocking, a.cur = some (.moveAbs target blocking) → 5 ≤ a.upc → a.npoll < n
  /-- The response record is a legal one (R85). -/
  response : ∀ r ∈ a.resp, r.Inv

/-- The invariant of the machine between two steps: the bus lock is free (R62, R184), the bus has carried whole exchanges
only, every axis has its own chip select (R64), and every axis meets its invariant. -/
structure State.Inv (s : State) : Prop where
  lock_free : s.lock = none
  whole_exchanges : bracketed s.bus = true
  own_chips : (s.axes.map Axis.chip).Nodup
  each_axis : ∀ a ∈ s.axes, a.Inv s.par

end Sys2Proof.Machine
end

