-- ==== Sys2Proof/Certificates/Slice0/Obligations.lean ====
section
/-!
DEFINITION. The statements for the provers. Every docstring names the rule of spec/ a statement formalises; the sentences quoted
stand in OBLIGATIONS.json.
-/

open Sys2Proof Sys2Proof.Machine

/-! ## The codec -/

/-- R90 and R93: the two conversions as the source writes them, and that they are inverse bijections. -/
def Obligations.SignedConversionsAreInverse : Prop :=
  (∀ v : Int, -2 ^ 31 ≤ v → v ≤ 2 ^ 31 - 1 →
    ((u32 v).toNat : Int) = (if v < 0 then v + 2 ^ 32 else v) ∧ s32 (u32 v) = v) ∧
  (∀ r : Word32, s32 r = (if 2 ^ 31 ≤ (r.toNat : Int) then (r.toNat : Int) - 2 ^ 32 else (r.toNat : Int)) ∧
    -2 ^ 31 ≤ s32 r ∧ s32 r ≤ 2 ^ 31 - 1 ∧ u32 (s32 r) = r)

/-- R91: out-of-range operands fail, the address checked first, and nothing else fails. -/
def Obligations.CodecRangeCheckAddressFirst : Prop :=
  ∀ (d : Dir) (a v : Int),
    (¬ (0 ≤ a ∧ a ≤ 0x7F) → encodeFrame d a v = .error (.encoding .address a)) ∧
    (0 ≤ a → a ≤ 0x7F → ¬ (-2 ^ 31 ≤ v ∧ v ≤ 2 ^ 31 - 1) → encodeFrame d a v = .error (.encoding .value v)) ∧
    (0 ≤ a → a ≤ 0x7F → -2 ^ 31 ≤ v → v ≤ 2 ^ 31 - 1 → ∃ f, encodeFrame d a v = .ok f)

/-- R70, R72: the command byte and the big-endian data bytes of an encoded frame, as numbers. -/
def Obligations.EncodedFrameBytesAreBigEndian : Prop :=
  ∀ (d : Dir) (a v : Int) (f : Frame), encodeFrame d a v = .ok f →
    (f.b0.toNat : Int) = (match d with | .write => 0x80 | .read => 0) + a ∧
    ((f.b1.toNat * 2 ^ 24 + f.b2.toNat * 2 ^ 16 + f.b3.toNat * 2 ^ 8 + f.b4.toNat : Nat) : Int) =
      (if v < 0 then v + 2 ^ 32 else v)

/-- R96, all four laws: round trip, its status part, every frame the image of exactly one accepted triple, and decoding
total and onto `S32`. -/
def Obligations.CodecLawsRoundTripAndBijection : Prop :=
  (∀ a v : Int, -2 ^ 31 ≤ v → v ≤ 2 ^ 31 - 1 → 0 ≤ a → a ≤ 0x7F →
    ∃ f, encodeFrame .write a v = .ok f ∧ (decodeFrame f).1 = v ∧
      ((decodeFrame f).2.toNat : Int) = 0x80 + a ∧ (flagsOf (decodeFrame f).2).stopRight = true) ∧
  (∀ f : Frame, ∃ d a v, encodeFrame d a v = .ok f ∧
    ∀ d' a' v', encodeFrame d' a' v' = .ok f → d' = d ∧ a' = a ∧ v' = v) ∧
  (∀ f : Frame, -2 ^ 31 ≤ (decodeFrame f).1 ∧ (decodeFrame f).1 ≤ 2 ^ 31 - 1) ∧
  (∀ v : Int, -2 ^ 31 ≤ v → v ≤ 2 ^ 31 - 1 → ∃ f, (decodeFrame f).1 = v)

/-- R94 (and the layout of R74): each flag is its bit, and every combination of the eight flags is decodable. -/
def Obligations.StatusFlagsAreTheBits : Prop :=
  (∀ b : Byte, flagsOf b =
    { resetOccurred := b.toNat.testBit 0, driverError := b.toNat.testBit 1, stallDetected := b.toNat.testBit 2,
      standstill := b.toNat.testBit 3, velocityReached := b.toNat.testBit 4, positionReached := b.toNat.testBit 5,
      stopLeft := b.toNat.testBit 6, stopRight := b.toNat.testBit 7 }) ∧
  (∀ fs : StatusFlags, ∃ b : Byte, flagsOf b = fs ∧ ∀ b', flagsOf b' = fs → b' = b)

/-! ## Encoding of instructions -/

/-- Words written out from R70, R76, R80 and R81 decode to the instructions they stand for. -/
def Obligations.WrittenOutWordsDecode : Prop :=
  decode (.frame ⟨0xAD, 0x00, 0x01, 0x90, 0x00⟩) = .ok (.wrXtarget 0x00019000) ∧
  decode (.frame ⟨0x90, 0x00, 0x07, 0x03, 0x01⟩) = .ok (.wrIholdIrun 0x00070301) ∧
  decode (.frame ⟨0x21, 0, 0, 0, 0⟩) = .ok (.rdXactual 0) ∧
  decode (.frame ⟨0x81, 0, 0, 0, 0⟩) = .ok (.frameWrite 0x01 0) ∧
  decode (.frame ⟨0x7F, 0, 0, 0, 0x05⟩) = .ok (.frameRead 0x7F 5) ∧
  decode (.command ⟨0x3, [.int 0x2D, .int 500]⟩) = .ok (.writeReg 0x2D 500) ∧
  decode (.command ⟨0x7, [.int (-5000)]⟩) = .ok (.moveAbs (-5000) true) ∧
  decode (.command ⟨0xC, []⟩) = .ok .reservedC

/-- Decoding what the encoder makes of any well-formed instruction gives it back, every operand included. -/
def Obligations.DecodeOfEncodeIsTheInstruction : Prop :=
  ∀ i : Instr, i.wellFormed = true → decode (encode i) = .ok i

/-- R75: a frame word's fields, and that every frame is the encoding of exactly one well-formed instruction. -/
def Obligations.EveryFrameDecodesToExactlyOne : Prop :=
  ∀ f : Frame,
    (f.dir = .write ↔ f.word.toNat.testBit 39 = true) ∧ f.addr.toNat = f.word.toNat / 2 ^ 32 % 2 ^ 7 ∧
    (decodeFrame f).1 = s32 (BitVec.ofNat 32 f.word.toNat) ∧
    (decodeWire f).wellFormed = true ∧ encode (decodeWire f) = .frame f ∧
    ∀ i : Instr, i.wellFormed = true → encode i = .frame f → i = decodeWire f

/-! ## A step runs the instruction -/

/-- What a step does for the axis that takes the turn: it goes on with the command in progress; or it exchanges a waiting
wire frame (log 3); or it accepts the command at the port (R30, R83; a reserved code leaves `upc` and `npoll`, R82) and
runs its first controller step (R31; one step by log 1); a word that is no command is refused by name (log 19); with
nothing to do, or a frame waiting for the bus, the turn passes (logs 13, 14). -/
def Obligations.StepRunsTheDecodedInstruction : Prop :=
  ∀ s t : State, s.takeTurn = t →
    (∀ i, t.ax.busy = true → t.ax.cur = some i → step s = exec i t) ∧
    (∀ f, t.ax.busy = false → t.ax.wireIn = some f → t.lock = none →
      step s = exec (decodeWire f) { t with ax := { t.ax with wireIn := none } }) ∧
    (∀ w rest i, t.ax.busy = false → t.ax.wireIn = none → t.ax.port = w :: rest → decode (.command w) = .ok i →
      (i.isReserved = false →
        step s = exec i { t with ax := { t.ax with busy := true, cur := some i, upc := 0, npoll := 0, port := rest } }) ∧
      (i.isReserved = true →
        step s = exec i { t with ax := { t.ax with busy := true, cur := some i, port := rest } })) ∧
    (∀ w rest e, t.ax.busy = false → t.ax.wireIn = none → t.ax.port = w :: rest → decode (.command w) = .error e →
      step s = .refused (.badOperands w.cmd)) ∧
    (t.ax.busy = false → t.ax.wireIn = none → t.ax.port = [] → step s = .next t) ∧
    (∀ f c, t.ax.busy = false → t.ax.wireIn = some f → t.lock = some c → step s = .next t)

/-- Taking a turn changes no axis, no bus state and no parameter; the axis the turn names steps next (log 10). -/
def Obligations.TakingTheTurnChangesNoAxis : Prop :=
  ∀ s : State,
    s.takeTurn.axes = s.axes ∧ s.takeTurn.par = s.par ∧ s.takeTurn.lock = s.lock ∧ s.takeTurn.bus = s.bus ∧
    s.takeTurn.answers = s.answers ∧ s.takeTurn.draws = s.draws ∧ s.takeTurn.turns = s.turns.tail ∧
    s.takeTurn.ticks = s.ticks + 1 ∧
    (∀ h : s.turn < s.axes.length, s.takeTurn.ax = s.axes[s.turn] ∧ s.takeTurn.before.length = s.turn) ∧
    (s.axes.length ≤ s.turn → s.takeTurn.ax = s.ax ∧ s.takeTurn.before = s.before)

/-- The very next step runs the instruction an opcode-table word stands for (log 25). -/
def Obligations.PlacedWordIsRunNext : Prop :=
  ∀ (s : State) (nbits w : Nat) (i : Instr), decodeTableWord nbits w = some i →
    ∃ t, step (s.withFetchWord nbits w) = exec i t ∧ t.lock = none ∧ t.bus = s.bus ∧ t.answers = s.answers ∧
      t.par = s.par ∧ t.before = s.before ∧ t.after = s.after ∧ t.ax.flags = s.ax.flags ∧
      (i.isCommand = true → t.ax.cur = some i ∧ t.ax.busy = true ∧ t.ax.port = s.ax.port) ∧
      (i.isCommand = true → i.isReserved = false → t.ax.upc = 0 ∧ t.ax.npoll = 0) ∧
      (i.isReserved = true → t.ax.upc = s.ax.upc ∧ t.ax.npoll = s.ax.npoll)

/-! ## The codec commands, GET_FLAGS and the reserved codes -/

/-- R92: ENCODE_FRAME responds with the frame, or raises the codec's error; no exchange, `flags` unchanged. -/
def Obligations.EncodeFrameCommandResponds : Prop :=
  ∀ (s : State) (d : Dir) (a v : Int), s.ax.upc = 0 →
    (∀ f, encodeFrame d a v = .ok f →
      exec (.encodeFrame d a v) s = .next (s.afterResponse { Response.good s.ax.flags with frame := some f })) ∧
    (∀ field got, encodeFrame d a v = .error (.encoding field got) →
      exec (.encodeFrame d a v) s =
        .next (s.afterResponse (Response.bad .eEncoding (some (.encoding field got)) s.ax.flags)))

/-- R95: DECODE_FRAME never fails; the decoded status goes to `dflags`, not to `flags`. -/
def Obligations.DecodeFrameCommandResponds : Prop :=
  ∀ (s : State) (f : Frame), s.ax.upc = 0 →
    exec (.decodeFrame f) s =
      .next (s.afterResponse { Response.good s.ax.flags with
        value := some (s32 (f.b1 ++ f.b2 ++ f.b3 ++ f.b4)), dflags := some f.b0 })

/-- R113, R162: GET_FLAGS reports the cached flags, or raises E_FLAGS_UNSET; no bus activity. -/
def Obligations.GetFlagsReportsOrRaises : Prop :=
  ∀ s : State, s.ax.upc = 0 →
    (∀ b, s.ax.flags = some b → exec .getFlags s = .next (s.afterResponse (Response.good (some b)))) ∧
    (s.ax.flags = none → exec .getFlags s = .next (s.afterResponse (Response.bad .eFlagsUnset none none)))

/-- R82, R163: accepting a reserved code ends the command at once with E_BAD_COMMAND; no state of the axis changes other
than `resp`, and the word has left the port. Whatever operands stand beside it (log 19). -/
def Obligations.ReservedCodesRaiseBadCommand : Prop :=
  (∀ (s : State),
    exec .reserved0 s = .next (s.afterResponse (Response.bad .eBadCommand (some (.badCommand 0x0)) s.ax.flags)) ∧
    exec .reservedC s = .next (s.afterResponse (Response.bad .eBadCommand (some (.badCommand 0xC)) s.ax.flags)) ∧
    exec .reservedD s = .next (s.afterResponse (Response.bad .eBadCommand (some (.badCommand 0xD)) s.ax.flags)) ∧
    exec .reservedE s = .next (s.afterResponse (Response.bad .eBadCommand (some (.badCommand 0xE)) s.ax.flags)) ∧
    exec .reservedF s = .next (s.afterResponse (Response.bad .eBadCommand (some (.badCommand 0xF)) s.ax.flags))) ∧
  (∀ (s : State) (c : BitVec 4) (ops : List Operand) (rest : List CommandWord), c = 0x0 ∨ 0xC ≤ c.toNat →
    s.ax.busy = false → s.ax.cur = none → s.ax.rx = none → s.ax.wireIn = none → s.ax.port = ⟨c, ops⟩ :: rest →
      axisStep s = .next { s with ax := { s.ax with
        resp := some (Response.bad .eBadCommand (some (.badCommand c)) s.ax.flags), port := rest } })

/-- R85, item 24 of 93_implementation_defined.md: reading `resp.flags` faults exactly when `flags_valid` is not
set. The form of the fault is the model's (log 20). -/
def Obligations.ReadingUnsetResponseFlagsFaults : Prop :=
  ∀ (a : Axis) (r : Response), a.resp = some r → r.flagsValid = r.flags.isSome →
    (r.flagsValid = false → a.readRespFlags = .error .respFlagsUnset) ∧
    (r.flagsValid = true → ∃ b, r.flags = some b ∧ a.readRespFlags = .ok b)

/-! ## Wire frames, writes and reads -/

/-- R106, R108 for the wire frames: each is one physical exchange of its frame, and `flags` is then the status byte. That a
frame is run by itself is the model's choice (log 3). -/
def Obligations.WireFramesAreExchanged : Prop :=
  ∀ (s : State) (r : Frame) (d : Word32) (a : RegAddr), s.lock = none → s.answer = .frame r →
    exec (.frameRead a d) s = .next (s.afterWireFrame (Frame.ofParts (a.setWidth 8) d) r) ∧
    exec (.frameWrite a d) s = .next (s.afterWireFrame (Frame.ofParts (0x80 ||| a.setWidth 8) d) r) ∧
    exec (.wrGconf d) s = .next (s.afterWireFrame (Frame.ofParts 0x80 d) r) ∧
    exec (.wrChopconf d) s = .next (s.afterWireFrame (Frame.ofParts 0xEC d) r) ∧
    exec (.wrIholdIrun d) s = .next (s.afterWireFrame (Frame.ofParts 0x90 d) r) ∧
    exec (.wrTpowerdown d) s = .next (s.afterWireFrame (Frame.ofParts 0x91 d) r) ∧
    exec (.wrPwmconf d) s = .next (s.afterWireFrame (Frame.ofParts 0xF0 d) r) ∧
    exec (.wrA1 d) s = .next (s.afterWireFrame (Frame.ofParts 0xA4 d) r) ∧
    exec (.wrV1 d) s = .next (s.afterWireFrame (Frame.ofParts 0xA5 d) r) ∧
    exec (.wrAmax d) s = .next (s.afterWireFrame (Frame.ofParts 0xA6 d) r) ∧
    exec (.wrVmax d) s = .next (s.afterWireFrame (Frame.ofParts 0xA7 d) r) ∧
    exec (.wrD1 d) s = .next (s.afterWireFrame (Frame.ofParts 0xAA d) r) ∧
    exec (.wrVstop d) s = .next (s.afterWireFrame (Frame.ofParts 0xAB d) r) ∧
    exec (.wrRampmode d) s = .next (s.afterWireFrame (Frame.ofParts 0xA0 d) r) ∧
    exec (.wrXactual d) s = .next (s.afterWireFrame (Frame.ofParts 0xA1 d) r) ∧
    exec (.wrXtarget d) s = .next (s.afterWireFrame (Frame.ofParts 0xAD d) r) ∧
    exec (.rdXactual d) s = .next (s.afterWireFrame (Frame.ofParts 0x21 d) r) ∧
    exec (.rdXEnc d) s = .next (s.afterWireFrame (Frame.ofParts 0x39 d) r) ∧
    exec (.wrXEnc d) s = .next (s.afterWireFrame (Frame.ofParts 0xB9 d) r)

/-- R106 and R62: while the bus lock is held no exchange takes place; the axis waits, unchanged (log 13). -/
def Obligations.HeldLockMakesExchangesWait : Prop :=
  ∀ (s : State) (c : Nat), s.lock = some c →
    (∀ i : Instr, i.isCommand = false → exec i s = .next s) ∧
    (∀ (i : Instr) (t : State), exec i s = .next t →
      t.bus = s.bus ∧ t.lock = s.lock ∧ t.answers = s.answers ∧ t.ax.cs = s.ax.cs ∧ t.ax.flags = s.ax.flags) ∧
    (∀ speed at_ run hold, s.ax.upc = 0 → exec (.setup speed at_ run hold) s = .next s)

/-- R109, R111, R121, R146: WRITE_REG and SET_ENC are one logical write and then a response; SET_ENC's number is rounded as
R121 says, after BINARY64 where that is set (log 18). The numbers of the positions, here
and in the statements below, are the model's (log 16). -/
def Obligations.SingleWriteCommandsComplete : Prop :=
  ∀ (s : State) (r : Frame),
    (∀ a v : Int, 0 ≤ a → a ≤ 0x7F → -2 ^ 31 ≤ v → v ≤ 2 ^ 31 - 1 → s.ax.upc = 0 → s.lock = none →
      s.answer = .frame r → exec (.writeReg a v) s = .next (s.afterFrame (writeFrame a v) r 1)) ∧
    (∀ a v : Int, s.ax.upc = 1 → exec (.writeReg a v) s = .next (s.afterResponse (Response.good s.ax.flags))) ∧
    (∀ (x : Rat) (v : Int), rnd s.par (num s.par x) = v → -2 ^ 31 ≤ v → v ≤ 2 ^ 31 - 1 → s.ax.upc = 0 →
      s.lock = none → s.answer = .frame r → exec (.setEnc x) s = .next (s.afterFrame (writeFrame 0x39 v) r 1)) ∧
    (∀ x : Rat, s.ax.upc = 1 → exec (.setEnc x) s = .next (s.afterResponse (Response.good s.ax.flags)))

/-- R111, R112, R135, R146, R156: an out-of-range operand raises E_ENCODING with no exchange. That it does so even while the
bus is held is log 13; what SET_ENC's number is with BINARY64 is log 18. -/
def Obligations.OutOfRangeOperandsRaiseBeforeExchange : Prop :=
  ∀ (s : State) (e : EncodingField) (got : Int), s.ax.upc = 0 →
    (∀ a v : Int, encodeFrame .write a v = .error (.encoding e got) →
      exec (.writeReg a v) s =
        .next (s.afterResponse (Response.bad .eEncoding (some (.encoding e got)) s.ax.flags))) ∧
    (∀ a : Int, ¬ (0 ≤ a ∧ a ≤ 0x7F) →
      exec (.readReg a) s =
        .next (s.afterResponse (Response.bad .eEncoding (some (.encoding .address a)) s.ax.flags))) ∧
    (∀ (v : Int) (b : Bool), ¬ (-2 ^ 31 ≤ v ∧ v ≤ 2 ^ 31 - 1) →
      exec (.moveAbs v b) s =
        .next (s.afterResponse (Response.bad .eEncoding (some (.encoding .value v)) s.ax.flags))) ∧
    (∀ x : Rat, ¬ (-2 ^ 31 ≤ rnd s.par (num s.par x) ∧ rnd s.par (num s.par x) ≤ 2 ^ 31 - 1) →
      exec (.setEnc x) s =
        .next (s.afterResponse
          (Response.bad .eEncoding (some (.encoding .value (rnd s.par (num s.par x)))) s.ax.flags)))

/-- R144, R186: SET_POS writes 0 to XACTUAL and then to XTARGET whatever its argument is, and responds (positions: log 16). -/
def Obligations.SetPosWritesZeroTwice : Prop :=
  ∀ (s : State) (x : Rat),
    (∀ r, s.lock = none → s.answer = .frame r → s.ax.upc = 0 →
      exec (.setPos x) s = .next (s.afterFrame ⟨0xA1, 0, 0, 0, 0⟩ r 1)) ∧
    (∀ r, s.lock = none → s.answer = .frame r → s.ax.upc = 1 →
      exec (.setPos x) s = .next (s.afterFrame ⟨0xAD, 0, 0, 0, 0⟩ r 2)) ∧
    (s.ax.upc = 2 → exec (.setPos x) s = .next (s.afterResponse (Response.good s.ax.flags)))

/-- R110, R112, R143, R145: a logical read sends its read frame twice, holds the second response, and responds with the
value decoded from it (positions: log 16; the held response: log 17). -/
def Obligations.ReadCommandsExchangeTwiceAndRespond : Prop :=
  ∀ (s : State) (i : Instr) (a : Int), 0 ≤ a → a ≤ 0x7F →
    i = .readReg a ∨ (i = .getPos ∧ a = 0x21) ∨ (i = .readEnc ∧ a = 0x39) →
    (∀ r, s.lock = none → s.answer = .frame r → s.ax.upc = 0 →
      exec i s = .next (s.afterFrame (readFrame a) r 1)) ∧
    (∀ r, s.lock = none → s.answer = .frame r → s.ax.upc = 1 →
      exec i s = .next (s.afterFrame (readFrame a) r 2)) ∧
    (∀ r, s.ax.upc = 2 → s.ax.rx = some r →
      exec i s = .next (s.afterResponse { Response.good s.ax.flags with
        value := some (s32 (r.b1 ++ r.b2 ++ r.b3 ++ r.b4)) }))

/-- R112 over the whole command: three controller steps, the value from the second response only, `flags` its status byte. -/
def Obligations.ReadRegRunReturnsSecondResponse : Prop :=
  ∀ (s : State) (a : Int) (r1 r2 : Frame) (rest : List Answer), 0 ≤ a → a ≤ 0x7F → s.lock = none →
    s.ax.busy = true → s.ax.cur = some (.readReg a) → s.ax.upc = 0 →
    s.answers = .frame r1 :: .frame r2 :: rest →
    ∃ t, axisSteps 3 s = .next t ∧ t.ax.busy = false ∧ t.ax.cur = none ∧ t.ax.flags = some r2.b0 ∧
      t.answers = rest ∧ t.lock = none ∧
      t.bus = s.bus ++ exchangeEvents s.ax.chip (readFrame a) (.frame r1)
        ++ exchangeEvents s.ax.chip (readFrame a) (.frame r2) ∧
      t.ax.resp = some { Response.good (some r2.b0) with value := some (s32 (r2.b1 ++ r2.b2 ++ r2.b3 ++ r2.b4)) }

/-! ## Scaling -/

/-- R121: `rnd` is `floor(q + 1/2)` with `P_ROUND = HALF_UP`, the nearest integer with a tie going toward +infinity; with
`HALF_EVEN` a nearest integer, a tie going to the even one. -/
def Obligations.RoundingFollowsPRound : Prop :=
  ∀ (p : Params) (q : Rat),
    (p.round = .halfUp → rnd p q = (q + 1 / 2).floor ∧
      ∀ n : Int, rnd p q = n ↔ (n : Rat) - 1 / 2 ≤ q ∧ q < (n : Rat) + 1 / 2) ∧
    (p.round = .halfEven → (rnd p q : Rat) - 1 / 2 ≤ q ∧ q ≤ (rnd p q : Rat) + 1 / 2 ∧
      (q = (rnd p q : Rat) + 1 / 2 ∨ q = (rnd p q : Rat) - 1 / 2 → rnd p q % 2 = 0))

/-- R122: the current code is in 1 to 31 under every parameter; with exact arithmetic it is `clamp(rnd(ma / 100), 1, 31)`,
with half-up rounding 1 below 150 mA and 31 from 3050 mA up. -/
def Obligations.CurrentCodeIsClamped : Prop :=
  (∀ (p : Params) (ma : Rat), 1 ≤ ccode p ma ∧ ccode p ma ≤ 31) ∧
  (∀ (p : Params) (ma : Rat), p.numerics = .exact →
    (rnd p (ma / 100) < 1 → ccode p ma = 1) ∧ (31 < rnd p (ma / 100) → ccode p ma = 31) ∧
    (1 ≤ rnd p (ma / 100) → rnd p (ma / 100) ≤ 31 → ccode p ma = rnd p (ma / 100)) ∧
    (p.round = .halfUp → (ma < 150 → ccode p ma = 1) ∧ (3050 ≤ ma → ccode p ma = 31)))

/-- R123: the packed current word, always in `S32`. -/
def Obligations.CurrentWordPacksBothCodes : Prop :=
  ∀ run hold : Int, 1 ≤ run → run ≤ 31 → 1 ≤ hold → hold ≤ 31 →
    iholdIrun run hold = 0x070000 + 256 * run + hold ∧
    0x070101 ≤ iholdIrun run hold ∧ iholdIrun run hold ≤ 0x071F1F

/-- R124 and R125 with the normative parameters: the scaling formulas, rounded half up. -/
def Obligations.MotionValuesFollowTheFormulas : Prop :=
  ∀ (p : Params) (speed t : Rat), p.numerics = .exact → p.round = .halfUp →
    (t ≠ 0 → (accel p speed t : Rat) - 1 / 2 ≤ speed / t * (1527 / 100000) ∧
      speed / t * (1527 / 100000) < (accel p speed t : Rat) + 1 / 2) ∧
    (vel p speed : Rat) - 1 / 2 ≤ speed * (13981 / 10000) ∧ speed * (13981 / 10000) < (vel p speed : Rat) + 1 / 2 ∧
    (1536001465 ≤ speed → 2 ^ 31 ≤ vel p speed) ∧
    (0 ≤ speed → speed ≤ 1536001464 → 0 ≤ vel p speed ∧ vel p speed ≤ 2 ^ 31 - 1)

/-! ## SETUP -/

/-- R126, R127, R128: the fourteen writes of SETUP, in order, with what each latches; each completes as one exchange. The
numbers of the positions are the model's (log 16). -/
def Obligations.SetupWritesInOrder : Prop :=
  ∀ (s : State) (speed t irun ihold : Rat) (r : Frame) (i : Instr) (run hold a v : Int),
    s.lock = none → s.answer = .frame r → i = .setup speed t irun ihold →
    run = ccode s.par irun → hold = ccode s.par ihold → a = accel s.par speed t → v = vel s.par speed →
    (s.ax.upc = 0 → exec i s =
      .next ({ s with ax := { s.ax with configured := false } }.afterFrame ⟨0x80, 0, 0, 0, 0⟩ r 1)) ∧
    (s.ax.upc = 1 → exec i s = .next (s.afterFrame (Frame.ofParts 0xEC s.par.chopconf) r 2)) ∧
    (s.ax.upc = 2 → exec i s =
      .next ({ s with ax := { s.ax with cfgRun := some run, cfgHold := some hold } }.afterFrame
        (Frame.ofParts 0x90 (u32 (iholdIrun run hold))) r 3)) ∧
    (s.ax.upc = 3 → exec i s = .next (s.afterFrame ⟨0x91, 0, 0, 0, 0x0A⟩ r 4)) ∧
    (s.ax.upc = 4 → exec i s = .next (s.afterFrame ⟨0xF0, 0, 0, 0, 0⟩ r 5)) ∧
    (s.ax.upc = 5 → num s.par t ≠ 0 → -2 ^ 31 ≤ a → a ≤ 2 ^ 31 - 1 → exec i s =
      .next ({ s with ax := { s.ax with cfgA := some a, cfgV := some v } }.afterFrame
        (Frame.ofParts 0xA4 (u32 a)) r 6)) ∧
    (s.ax.upc = 6 → -2 ^ 31 ≤ v → v ≤ 2 ^ 31 - 1 → exec i s = .next (s.afterFrame (Frame.ofParts 0xA5 (u32 v)) r 7)) ∧
    (s.ax.upc = 7 → -2 ^ 31 ≤ a → a ≤ 2 ^ 31 - 1 → exec i s = .next (s.afterFrame (Frame.ofParts 0xA6 (u32 a)) r 8)) ∧
    (s.ax.upc = 8 → -2 ^ 31 ≤ v → v ≤ 2 ^ 31 - 1 → exec i s = .next (s.afterFrame (Frame.ofParts 0xA7 (u32 v)) r 9)) ∧
    (s.ax.upc = 9 → -2 ^ 31 ≤ a → a ≤ 2 ^ 31 - 1 → exec i s =
      .next (s.afterFrame (Frame.ofParts 0xAA (u32 a)) r 10)) ∧
    (s.ax.upc = 10 → exec i s = .next (s.afterFrame ⟨0xAB, 0, 0, 0, 0x0A⟩ r 11)) ∧
    (s.ax.upc = 11 → exec i s = .next (s.afterFrame ⟨0xA0, 0, 0, 0, 0⟩ r 12)) ∧
    (s.ax.upc = 12 → exec i s = .next (s.afterFrame ⟨0xA1, 0, 0, 0, 0⟩ r 13)) ∧
    (s.ax.upc = 13 → exec i s = .next (s.afterFrame ⟨0xAD, 0, 0, 0, 0⟩ r 14))

/-- R126, R128: after the fourteenth write SETUP sets `configured` and responds with what it computed (position:
log 16). -/
def Obligations.SetupCompletesConfigured : Prop :=
  ∀ (s : State) (speed t irun ihold : Rat), s.ax.upc = 14 →
    exec (.setup speed t irun ihold) s =
      .next ({ s with ax := { s.ax with configured := true } }.afterResponse { Response.good s.ax.flags with
        cfg := some ⟨ccode s.par irun, ccode s.par ihold, accel s.par speed t, vel s.par speed⟩ })

/-- R126, R156, R161, R164: where SETUP raises: E_SCALE_DOMAIN before step 6 for a zero time, and E_ENCODING at the write
whose value is out of range, with what was latched before it, and no exchange. The positions are the
model's (log 16), and which numbers count as a zero time with BINARY64 is log 18. -/
def Obligations.SetupRaisesAtTheFailingStep : Prop :=
  ∀ (s : State) (speed t irun ihold : Rat) (i : Instr) (a v : Int), i = .setup speed t irun ihold →
    a = accel s.par speed t → v = vel s.par speed →
    (s.ax.upc = 5 → num s.par t = 0 → exec i s =
      .next (s.afterResponse (Response.bad .eScaleDomain (some (.scaleDomain t)) s.ax.flags))) ∧
    (s.ax.upc = 5 → num s.par t ≠ 0 → ¬ (-2 ^ 31 ≤ a ∧ a ≤ 2 ^ 31 - 1) → exec i s =
      .next ({ s with ax := { s.ax with cfgA := some a, cfgV := some v } }.afterResponse
        (Response.bad .eEncoding (some (.encoding .value a)) s.ax.flags))) ∧
    (s.ax.upc = 6 → ¬ (-2 ^ 31 ≤ v ∧ v ≤ 2 ^ 31 - 1) → exec i s =
      .next (s.afterResponse (Response.bad .eEncoding (some (.encoding .value v)) s.ax.flags)))

/-- R128, R130, R157: a transport error at a write of SETUP ends it after the frame of that write (R127), with everything
latched before it kept: `configured` false from the first write on, the current codes from write 3 on, the motion values
from write 6 on; nothing else but the end of the command changes. The positions are the model's (log 16). -/
def Obligations.SetupAbortKeepsWhatIsLatched : Prop :=
  ∀ (s : State) (speed t irun ihold : Rat) (e : TransportError) (i : Instr) (run hold a v : Int),
    i = .setup speed t irun ihold → s.lock = none → s.answer = .error e →
    run = ccode s.par irun → hold = ccode s.par ihold → a = accel s.par speed t → v = vel s.par speed →
    (s.ax.upc = 0 → exec i s =
      .next ({ s with ax := { s.ax with configured := false } }.afterTransportError ⟨0x80, 0, 0, 0, 0⟩ e)) ∧
    (s.ax.upc = 1 → exec i s = .next (s.afterTransportError (Frame.ofParts 0xEC s.par.chopconf) e)) ∧
    (s.ax.upc = 2 → exec i s =
      .next ({ s with ax := { s.ax with cfgRun := some run, cfgHold := some hold } }.afterTransportError
        (Frame.ofParts 0x90 (u32 (iholdIrun run hold))) e)) ∧
    (s.ax.upc = 3 → exec i s = .next (s.afterTransportError ⟨0x91, 0, 0, 0, 0x0A⟩ e)) ∧
    (s.ax.upc = 4 → exec i s = .next (s.afterTransportError ⟨0xF0, 0, 0, 0, 0⟩ e)) ∧
    (s.ax.upc = 5 → num s.par t ≠ 0 → -2 ^ 31 ≤ a → a ≤ 2 ^ 31 - 1 → exec i s =
      .next ({ s with ax := { s.ax with cfgA := some a, cfgV := some v } }.afterTransportError
        (Frame.ofParts 0xA4 (u32 a)) e)) ∧
    (s.ax.upc = 6 → -2 ^ 31 ≤ v → v ≤ 2 ^ 31 - 1 →
      exec i s = .next (s.afterTransportError (Frame.ofParts 0xA5 (u32 v)) e)) ∧
    (s.ax.upc = 7 → -2 ^ 31 ≤ a → a ≤ 2 ^ 31 - 1 →
      exec i s = .next (s.afterTransportError (Frame.ofParts 0xA6 (u32 a)) e)) ∧
    (s.ax.upc = 8 → -2 ^ 31 ≤ v → v ≤ 2 ^ 31 - 1 →
      exec i s = .next (s.afterTransportError (Frame.ofParts 0xA7 (u32 v)) e)) ∧
    (s.ax.upc = 9 → -2 ^ 31 ≤ a → a ≤ 2 ^ 31 - 1 →
      exec i s = .next (s.afterTransportError (Frame.ofParts 0xAA (u32 a)) e)) ∧
    (s.ax.upc = 10 → exec i s = .next (s.afterTransportError ⟨0xAB, 0, 0, 0, 0x0A⟩ e)) ∧
    (s.ax.upc = 11 → exec i s = .next (s.afterTransportError ⟨0xA0, 0, 0, 0, 0⟩ e)) ∧
    (s.ax.upc = 12 → exec i s = .next (s.afterTransportError ⟨0xA1, 0, 0, 0, 0⟩ e)) ∧
    (s.ax.upc = 13 → exec i s = .next (s.afterTransportError ⟨0xAD, 0, 0, 0, 0⟩ e))

/-- R126 to R128 over the whole command (from its acceptance, log 1): from acceptance, fourteen exchanges whose frames are R127's in order, then the
response; `flags` ends as the last status byte. -/
def Obligations.SetupRunSendsTheFourteenFrames : Prop :=
  ∀ (s : State) (speed t irun ihold : Rat) (rs : List Frame) (last : Frame) (rest : List Answer)
    (run hold a v : Int),
    s.lock = none → s.ax.busy = true → s.ax.cur = some (.setup speed t irun ihold) → s.ax.upc = 0 →
    num s.par t ≠ 0 → run = ccode s.par irun → hold = ccode s.par ihold →
    a = accel s.par speed t → v = vel s.par speed →
    -2 ^ 31 ≤ a → a ≤ 2 ^ 31 - 1 → -2 ^ 31 ≤ v → v ≤ 2 ^ 31 - 1 →
    rs.length = 13 → s.answers = rs.map .frame ++ .frame last :: rest →
    ∃ u es, axisSteps 15 s = .next u ∧ u.bus = s.bus ++ es ∧ bracketed es = true ∧
      sentFrames es = [⟨0x80, 0, 0, 0, 0⟩, Frame.ofParts 0xEC s.par.chopconf,
        Frame.ofParts 0x90 (u32 (iholdIrun run hold)), ⟨0x91, 0, 0, 0, 0x0A⟩, ⟨0xF0, 0, 0, 0, 0⟩,
        Frame.ofParts 0xA4 (u32 a), Frame.ofParts 0xA5 (u32 v), Frame.ofParts 0xA6 (u32 a),
        Frame.ofParts 0xA7 (u32 v), Frame.ofParts 0xAA (u32 a), ⟨0xAB, 0, 0, 0, 0x0A⟩, ⟨0xA0, 0, 0, 0, 0⟩,
        ⟨0xA1, 0, 0, 0, 0⟩, ⟨0xAD, 0, 0, 0, 0⟩] ∧
      u.answers = rest ∧ u.lock = none ∧ u.ax.busy = false ∧ u.ax.cur = none ∧ u.ax.configured = true ∧
      u.ax.cfgRun = some run ∧ u.ax.cfgHold = some hold ∧ u.ax.cfgA = some a ∧ u.ax.cfgV = some v ∧
      u.ax.flags = some last.b0 ∧
      u.ax.resp = some { Response.good (some last.b0) with cfg := some ⟨run, hold, a, v⟩ }

/-! ## MOVE_ABS -/

/-- R135, R136, R139, R141, R147: the target write, the two exchanges of the priming read, the non-blocking response, the
two exchanges of a poll, and the poll limit's response in place of a poll. The priming read's flags decide nothing. The numbers of the positions are the model's (log 16). -/
def Obligations.MoveAbsSequence : Prop :=
  ∀ (s : State) (target : Int) (b : Bool),
    (∀ r, s.lock = none → s.answer = .frame r →
      (s.ax.upc = 0 → -2 ^ 31 ≤ target → target ≤ 2 ^ 31 - 1 →
        exec (.moveAbs target b) s = .next (s.afterFrame (Frame.ofParts 0xAD (u32 target)) r 1)) ∧
      (s.ax.upc = 1 → exec (.moveAbs target b) s = .next (s.afterFrame ⟨0x21, 0, 0, 0, 0⟩ r 2)) ∧
      (s.ax.upc = 2 → exec (.moveAbs target false) s = .next (s.afterFrame ⟨0x21, 0, 0, 0, 0⟩ r 3)) ∧
      (s.ax.upc = 2 → exec (.moveAbs target true) s = .next (s.afterFrame ⟨0x21, 0, 0, 0, 0⟩ r 4)) ∧
      (s.ax.upc = 4 → s.par.pollLimit ≠ some s.ax.npoll →
        exec (.moveAbs target b) s = .next (s.afterFrame ⟨0x21, 0, 0, 0, 0⟩ r 5)) ∧
      (s.ax.upc = 5 → exec (.moveAbs target b) s = .next (s.afterFrame ⟨0x21, 0, 0, 0, 0⟩ r 6))) ∧
    (s.ax.upc = 3 → exec (.moveAbs target b) s =
      .next (s.afterResponse { Response.good s.ax.flags with outcome := some .issued })) ∧
    (s.ax.upc = 4 → s.par.pollLimit = some s.ax.npoll → exec (.moveAbs target b) s =
      .next (s.afterResponse { Response.good s.ax.flags with outcome := some .pollTimeout }))

/-- R141: with `P_POLL_LIMIT = some(n)` a move whose `n` polls show no terminal condition ends with status OK and
POLL_TIMEOUT after them, with no further poll; with `n = 0` right after the priming read. That `npoll` keeps its value when
the command ends is log 16. -/
def Obligations.PollLimitEndsTheMove : Prop :=
  ∀ (s : State) (target : Int) (w p1 p2 : Frame) (polls : List (Frame × Frame)) (rest : List Answer) (last : Byte),
    s.lock = none → s.ax.busy = true → s.ax.cur = some (.moveAbs target true) → s.ax.upc = 0 → s.ax.npoll = 0 →
    s.par.pollLimit = some polls.length → -2 ^ 31 ≤ target → target ≤ 2 ^ 31 - 1 →
    (∀ q ∈ polls, q.2.b0.toNat.testBit 1 = false ∧ q.2.b0.toNat.testBit 5 = false) →
    last = (polls.getLast?.map fun q => q.2.b0).getD p2.b0 →
    s.answers = .frame w :: .frame p1 :: .frame p2 ::
      (polls.flatMap fun q => [.frame q.1, .frame q.2]) ++ rest →
    ∃ u es, axisSteps (3 + 3 * polls.length + 1) s = .next u ∧ u.bus = s.bus ++ es ∧ bracketed es = true ∧
      sentFrames es = Frame.ofParts 0xAD (u32 target) ::
        List.replicate (2 + 2 * polls.length) ⟨0x21, 0, 0, 0, 0⟩ ∧
      u.answers = rest ∧ u.ax.npoll = polls.length ∧ u.ax.busy = false ∧ u.ax.cur = none ∧
      u.ax.flags = some last ∧
      u.ax.resp = some { Response.good (some last) with outcome := some .pollTimeout }

/-- R139: a non-blocking move ends with ISSUED right after the priming read: three exchanges and the response, no poll and
no inspection of the flags, whatever they are. -/
def Obligations.NonBlockingMoveEndsAfterThePrimingRead : Prop :=
  ∀ (s : State) (target : Int) (w p1 p2 : Frame) (rest : List Answer),
    s.lock = none → s.ax.busy = true → s.ax.cur = some (.moveAbs target false) → s.ax.upc = 0 →
    -2 ^ 31 ≤ target → target ≤ 2 ^ 31 - 1 →
    s.answers = .frame w :: .frame p1 :: .frame p2 :: rest →
    ∃ u es, axisSteps 4 s = .next u ∧ u.bus = s.bus ++ es ∧ bracketed es = true ∧
      sentFrames es = [Frame.ofParts 0xAD (u32 target), ⟨0x21, 0, 0, 0, 0⟩, ⟨0x21, 0, 0, 0, 0⟩] ∧
      u.answers = rest ∧ u.ax.npoll = s.ax.npoll ∧ u.ax.busy = false ∧ u.ax.cur = none ∧ u.ax.flags = some p2.b0 ∧
      u.ax.resp = some { Response.good (some p2.b0) with outcome := some .issued }

/-- R137, R138, R140: after a poll read the poll is counted; DRIVER_ERROR (bit 1) ends the move, else POSITION_REACHED
(bit 5), both with status OK; else `wait()`, which changes nothing else, and back to the loop head. -/
def Obligations.PollCheckEndsOrWaits : Prop :=
  ∀ (s : State) (target : Int) (b : Bool) (st : Byte), s.ax.upc = 6 → s.ax.flags = some st →
    (st.toNat.testBit 1 = true → exec (.moveAbs target b) s =
      .next ({ s with ax := { s.ax with npoll := s.ax.npoll + 1 } }.afterResponse
        { Response.good (some st) with outcome := some .driverError })) ∧
    (st.toNat.testBit 1 = false → st.toNat.testBit 5 = true → exec (.moveAbs target b) s =
      .next ({ s with ax := { s.ax with npoll := s.ax.npoll + 1 } }.afterResponse
        { Response.good (some st) with outcome := some .reached })) ∧
    (st.toNat.testBit 1 = false → st.toNat.testBit 5 = false → exec (.moveAbs target b) s =
      .next { s with ax := { s.ax with npoll := s.ax.npoll + 1, upc := 4 } })

/-- R135 to R139 over the whole command: a blocking move whose first `n` polls show neither terminal flag and whose next
poll shows one ends after that poll, in `1 + 2 + 2 * (n + 1)` exchanges, DRIVER_ERROR winning. That `npoll` keeps its
value when the command ends is log 16. -/
def Obligations.BlockingMoveEndsAtTheTerminalPoll : Prop :=
  ∀ (s : State) (target : Int) (w p1 p2 qa qb : Frame) (polls : List (Frame × Frame)) (rest : List Answer),
    s.lock = none → s.ax.busy = true → s.ax.cur = some (.moveAbs target true) → s.ax.upc = 0 → s.ax.npoll = 0 →
    s.par.pollLimit = none → -2 ^ 31 ≤ target → target ≤ 2 ^ 31 - 1 →
    (∀ q ∈ polls, q.2.b0.toNat.testBit 1 = false ∧ q.2.b0.toNat.testBit 5 = false) →
    (qb.b0.toNat.testBit 1 = true ∨ qb.b0.toNat.testBit 5 = true) →
    s.answers = .frame w :: .frame p1 :: .frame p2 ::
      (polls.flatMap fun q => [.frame q.1, .frame q.2]) ++ .frame qa :: .frame qb :: rest →
    ∃ u es, axisSteps (3 + 3 * polls.length + 3) s = .next u ∧ u.bus = s.bus ++ es ∧ bracketed es = true ∧
      sentFrames es = Frame.ofParts 0xAD (u32 target) ::
        List.replicate (2 + 2 * (polls.length + 1)) ⟨0x21, 0, 0, 0, 0⟩ ∧
      u.answers = rest ∧ u.ax.npoll = polls.length + 1 ∧ u.ax.busy = false ∧ u.ax.cur = none ∧
      u.ax.flags = some qb.b0 ∧
      u.ax.resp = some { Response.good (some qb.b0) with
        outcome := some (if qb.b0.toNat.testBit 1 then .driverError else .reached) }

/-- R142: with `P_POLL_LIMIT = none` and a chip that never sets bit 1 or bit 5 the move polls on: after any number `n` of
polls it is still in progress and no response has been given. -/
def Obligations.UnboundedPollingNeverResponds : Prop :=
  ∀ (s : State) (target : Int) (w p1 p2 : Frame) (polls : List (Frame × Frame)) (rest : List Answer),
    s.lock = none → s.ax.busy = true → s.ax.cur = some (.moveAbs target true) → s.ax.upc = 0 → s.ax.npoll = 0 →
    s.par.pollLimit = none → -2 ^ 31 ≤ target → target ≤ 2 ^ 31 - 1 →
    (∀ q ∈ polls, q.2.b0.toNat.testBit 1 = false ∧ q.2.b0.toNat.testBit 5 = false) →
    s.answers = .frame w :: .frame p1 :: .frame p2 ::
      (polls.flatMap fun q => [.frame q.1, .frame q.2]) ++ rest →
    ∃ u, axisSteps (3 + 3 * polls.length) s = .next u ∧ u.ax.busy = true ∧ u.ax.cur = s.ax.cur ∧
      u.ax.npoll = polls.length ∧ u.ax.resp = s.ax.resp ∧ u.lock = none ∧ u.answers = rest ∧
      (sentFrames u.bus).length = (sentFrames s.bus).length + 3 + 2 * polls.length

/-! ## Rules about every instruction -/

/-- R160: the numbers of the status codes and of the outcomes, and each error's status and information. -/
def Obligations.StatusCodesAreNumbered : Prop :=
  Status.ok.code = 0 ∧ Status.eEncoding.code = 1 ∧ Status.eTransport.code = 2 ∧ Status.eScaleDomain.code = 3 ∧
  Status.eFlagsUnset.code = 4 ∧ Status.eBadCommand.code = 5 ∧
  MoveOutcome.issued.code = 0 ∧ MoveOutcome.reached.code = 1 ∧ MoveOutcome.driverError.code = 2 ∧
  MoveOutcome.pollTimeout.code = 3 ∧
  ∀ (s : State) (e : Error), ∃ r, (s.raise e).ax.resp = some r ∧
    (∀ f got, e = .encoding f got → r.status = .eEncoding ∧ r.info = some (.encoding f got)) ∧
    (∀ x, e = .transport x → r.status = .eTransport ∧ r.info = some (.transport x)) ∧
    (∀ q, e = .scaleDomain q → r.status = .eScaleDomain ∧ r.info = some (.scaleDomain q)) ∧
    (e = .flagsUnset → r.status = .eFlagsUnset ∧ r.info = none) ∧
    (∀ c, e = .badCommand c → r.status = .eBadCommand ∧ r.info = some (.badCommand c))

/-- R23, R184 (and R62, R108): `flags` is written only by an exchange that returns a frame, with its status byte, and never
by ENCODE_FRAME, DECODE_FRAME, GET_FLAGS or a command that raises an encoding error; a step has at most one exchange, a
whole one, answered by the next answer, and after it the lock and the chip select are released whatever the answer was.
`answers` and `draws` are the inputs that stand for R107's oracle (log 9); that a bare wire frame writes `flags` is log 3. -/
def Obligations.OnlyAnsweredExchangesWriteFlags : Prop :=
  ∀ (i : Instr) (s t : State), exec i s = .next t →
    ((t.bus = s.bus ∧ t.ax.flags = s.ax.flags ∧ t.answers = s.answers ∧ t.draws = s.draws ∧ t.lock = s.lock) ∨
     (∃ out r, s.lock = none ∧ s.answer = .frame r ∧ t.bus = s.bus ++ exchangeEvents s.ax.chip out (.frame r) ∧
       t.ax.flags = some r.b0 ∧ t.answers = s.answers.tail ∧ t.draws = s.draws + 1 ∧ t.lock = none ∧
       t.ax.cs = false) ∨
     (∃ out e, s.lock = none ∧ s.answer = .error e ∧ t.bus = s.bus ++ exchangeEvents s.ax.chip out (.error e) ∧
       t.ax.flags = s.ax.flags ∧ t.answers = s.answers.tail ∧ t.draws = s.draws + 1 ∧ t.lock = none ∧
       t.ax.cs = false)) ∧
    ((∃ d a v, i = .encodeFrame d a v) ∨ (∃ f, i = .decodeFrame f) ∨ i = .getFlags ∨
       (∃ r, t.ax.resp = some r ∧ r.status = .eEncoding ∧
         (t.ax.resp ≠ s.ax.resp ∨ (s.ax.busy = true ∧ t.ax.busy = false))) →
     t.bus = s.bus ∧ t.ax.flags = s.ax.flags)

/-- R157, R159, R184: whatever instruction exchanges, a transport error ends it with E_TRANSPORT and the transport's error
unchanged; `flags` is not updated, and chip select and lock are released. That this holds of the bare wire frames, which
then set `resp` and end `busy` and `cur`, is the model's choice (log 3). -/
def Obligations.TransportErrorsArePassedOnUnchanged : Prop :=
  ∀ (i : Instr) (s t : State) (e : TransportError), exec i s = .next t → t.bus ≠ s.bus → s.answer = .error e →
    t.ax.resp = some (Response.bad .eTransport (some (.transport e)) s.ax.flags) ∧ t.ax.flags = s.ax.flags ∧
    t.lock = none ∧ t.ax.cs = false ∧ t.ax.busy = false ∧ t.ax.cur = none ∧
    ∃ out, t.bus = s.bus ++ exchangeEvents s.ax.chip out (.error e)

/-- R26, R27: only SETUP writes AxisConfig and `configured`. -/
def Obligations.OnlySetupWritesAxisConfig : Prop :=
  ∀ (i : Instr) (s t : State), exec i s = .next t →
    t.ax.configured = s.ax.configured ∧ t.ax.cfgRun = s.ax.cfgRun ∧ t.ax.cfgHold = s.ax.cfgHold ∧
      t.ax.cfgA = s.ax.cfgA ∧ t.ax.cfgV = s.ax.cfgV ∨
    ∃ speed at_ run hold, i = .setup speed at_ run hold

/-- R28: no command reads `configured` or AxisConfig to decide what it does. A step of an instruction other than SETUP is
the same whatever they hold; a step of the axis, acceptance and SETUP included, differs at most in what they hold after
it. -/
def Obligations.CommandsIgnoreConfiguration : Prop :=
  ∀ (s t : State) (c : Bool) (run hold a v : Option Int),
    (∀ i : Instr, (∀ speed at_ irun ihold, i ≠ .setup speed at_ irun ihold) → exec i s = .next t →
      exec i { s with ax := { s.ax with configured := c, cfgRun := run, cfgHold := hold, cfgA := a, cfgV := v } } =
        .next { t with ax := { t.ax with configured := c, cfgRun := run, cfgHold := hold, cfgA := a, cfgV := v } }) ∧
    (axisStep s = .next t → ∃ c' run' hold' a' v',
      axisStep { s with ax := { s.ax with configured := c, cfgRun := run, cfgHold := hold, cfgA := a, cfgV := v } } =
        .next { t with ax := { t.ax with
          configured := c', cfgRun := run', cfgHold := hold', cfgA := a', cfgV := v' } })

/-- R30, R83, R85: a step either leaves the command in progress and `resp` as they are, or ends the command: `resp` is the
new record with the flag fields as of its end, `busy` is false and `cur` none. -/
def Obligations.ResponsesComeOnlyAtCompletion : Prop :=
  ∀ (i : Instr) (s t : State), exec i s = .next t →
    (t.ax.resp = s.ax.resp ∧ t.ax.busy = s.ax.busy ∧ t.ax.cur = s.ax.cur) ∨
    (t.ax.busy = false ∧ t.ax.cur = none ∧ ∃ r, t.ax.resp = some r ∧ r.flagsValid = t.ax.flags.isSome ∧
      r.flags = t.ax.flags ∧ (r.status = .ok → r.info = none))

/-- The frame of every instruction: no step writes the arguments of the model, another axis, the turn inputs, the axis's
chip select number, its port or its waiting frame (R20, R172). -/
def Obligations.InstructionsLeaveTheRestUnchanged : Prop :=
  ∀ (i : Instr) (s t : State), exec i s = .next t →
    t.par = s.par ∧ t.before = s.before ∧ t.after = s.after ∧ t.turns = s.turns ∧ t.ticks = s.ticks ∧
    t.ax.chip = s.ax.chip ∧ t.ax.port = s.ax.port ∧ t.ax.wireIn = s.ax.wireIn ∧
    (t.ax.npoll = s.ax.npoll ∨ ∃ target b, i = .moveAbs target b ∧ t.ax.npoll = s.ax.npoll + 1 ∧ t.bus = s.bus)

/-- R35, R39, R72: what a host command puts on the bus: a read frame carries data 0; and a command other than WRITE_REG and
READ_REG addresses one of the named registers, never GSTAT. -/
def Obligations.CommandFramesKeepTheInvariant : Prop :=
  ∀ (i : Instr) (s t : State) (out : Frame) (ans : Answer), i.isCommand = true → exec i s = .next t →
    t.bus = s.bus ++ exchangeEvents s.ax.chip out ans →
    (out.b0.toNat.testBit 7 = false → out.b1 = 0 ∧ out.b2 = 0 ∧ out.b3 = 0 ∧ out.b4 = 0) ∧
    ((∀ a v, i ≠ .writeReg a v) → (∀ a, i ≠ .readReg a) →
      out.b0.toNat % 0x80 ≠ 0x01 ∧ ∃ reg : Reg, (out.b0.toNat % 0x80 : Int) = reg.addr)

/-- Isolation of the axes within an instruction (R172: "They send no signals to one another"): what an instruction does
does not depend on what the other axes hold. -/
def Obligations.InstructionsIgnoreOtherAxes : Prop :=
  ∀ (i : Instr) (s t : State) (bs cs : List Axis), exec i s = .next t →
    exec i { s with before := bs, after := cs } = .next { t with before := bs, after := cs }

/-! ## The machine -/

/-- R175: the reset values; reset sends no frame; the block then waits for its first host command: while no axis has an
input (as log 23 has it at reset) a step changes no axis and sends nothing (an idle step is the passing of the turn,
log 14). `P_AXES` is at least 1 (R9, log 7). -/
def Obligations.ResetLeavesTheBlockIdle : Prop :=
  State.reset.lock = none ∧ State.reset.bus = [] ∧ 1 ≤ State.reset.axes.length ∧
  (∀ a ∈ State.reset.axes, a.busy = false ∧ a.cur = none ∧ a.upc = 0 ∧ a.npoll = 0 ∧ a.flags = none ∧
    a.configured = false ∧ a.cfgRun = none ∧ a.cfgHold = none ∧ a.cfgA = none ∧ a.cfgV = none ∧ a.resp = none ∧
    a.cs = false) ∧
  ((∀ a ∈ State.reset.axes, a.port = [] ∧ a.wireIn = none) →
    ∃ t, step State.reset = .next t ∧ t.axes = State.reset.axes ∧ t.bus = [] ∧ t.lock = none)

/-- The invariant holds at reset. -/
def Obligations.ResetMeetsTheInvariant : Prop := State.reset.Inv

/-- Every step keeps the invariant. -/
def Obligations.EveryStepKeepsTheInvariant : Prop :=
  ∀ s t : State, s.Inv → step s = .next t → t.Inv

/-- From every state that meets the invariant a step gives a next state, unless the word at the port of the axis that has
the turn is no command; so no fault can happen, and nothing but a bad word is refused. -/
def Obligations.StepsNeverStickUnderTheInvariant : Prop :=
  ∀ s : State, s.Inv →
    (∃ t, step s = .next t) ∨
    ∃ w rest, s.takeTurn.ax.port = w :: rest ∧ (∃ e, decode (.command w) = .error e) ∧
      step s = .refused (.badOperands w.cmd)

/-- R172: a step changes no axis but the one that has the turn, and neither the number of axes, their chip selects, nor the
arguments of the model. -/
def Obligations.StepsChangeOneAxisOnly : Prop :=
  ∀ s t : State, step s = .next t →
    t.par = s.par ∧ t.axes.length = s.axes.length ∧ t.axes.map Axis.chip = s.axes.map Axis.chip ∧
    ∀ k, k ≠ s.takeTurn.before.length → t.axes[k]? = s.axes[k]?

/-- R83: a step takes at most the first command from a port, and only when it is accepted; none is dropped, merged or
reordered. -/
def Obligations.CommandsLeaveThePortInOrder : Prop :=
  ∀ s t : State, step s = .next t →
    t.ax.port = s.takeTurn.ax.port ∨
    (s.takeTurn.ax.busy = false ∧ ∃ w i, s.takeTurn.ax.port = w :: t.ax.port ∧ decode (.command w) = .ok i ∧
      (t.ax.cur = some i ∨ (t.ax.cur = none ∧ t.ax.busy = false ∧ ∃ r, t.ax.resp = some r)))
end

