-- ==== Sys2Proof/Laws/Decode.lean ====
section
/-!
SUPPORT. The fields of a frame and the frame made of fields, and what the decoders can answer.
-/

namespace Sys2Proof

/-- The data word of a frame as a number (R93: bytes 1 to 4, big-endian). -/
theorem data_toNat (f : Frame) :
    f.data.toNat = f.b1.toNat * 2 ^ 24 + f.b2.toNat * 2 ^ 16 + f.b3.toNat * 2 ^ 8 + f.b4.toNat := by
  have h1 := f.b1.isLt; have h2 := f.b2.isLt; have h3 := f.b3.isLt; have h4 := f.b4.isLt
  simp only [Frame.data, BitVec.toNat_append]
  rw [← Nat.shiftLeft_add_eq_or_of_lt (by omega), ← Nat.shiftLeft_add_eq_or_of_lt (by omega),
    ← Nat.shiftLeft_add_eq_or_of_lt (by omega)]
  simp only [Nat.shiftLeft_eq]
  omega

@[simp] theorem data_ofParts (b : Byte) (d : Word32) : (Frame.ofParts b d).data = d := by
  apply BitVec.eq_of_toNat_eq
  have := d.isLt
  rw [data_toNat]
  simp only [Frame.ofParts, BitVec.extractLsb'_toNat, Nat.shiftRight_eq_div_pow]
  omega

@[simp] theorem b0_ofParts (b : Byte) (d : Word32) : (Frame.ofParts b d).b0 = b := rfl

/-- A frame is made of its byte 0 and its data word. -/
theorem ofParts_data (f : Frame) : Frame.ofParts f.b0 f.data = f := by
  have := data_toNat f
  have h1 := f.b1.isLt; have h2 := f.b2.isLt; have h3 := f.b3.isLt; have h4 := f.b4.isLt
  cases f
  simp only at this h1 h2 h3 h4
  simp only [Frame.ofParts, Frame.mk.injEq, true_and]
  refine ⟨?_, ?_, ?_, ?_⟩ <;> apply BitVec.eq_of_toNat_eq <;>
    simp only [BitVec.extractLsb'_toNat, Nat.shiftRight_eq_div_pow, this] <;> omega

@[simp] theorem dir_ofParts (d : Dir) (a : RegAddr) (w : Word32) : (Frame.ofParts (commandByte d a) w).dir = d := by
  show (if (commandByte d a).msb = true then Dir.write else Dir.read) = d
  clear w; revert a; cases d <;> decide

@[simp] theorem addr_ofParts (d : Dir) (a : RegAddr) (w : Word32) : (Frame.ofParts (commandByte d a) w).addr = a := by
  show (commandByte d a).setWidth 7 = a
  clear w; revert a; cases d <;> decide

/-- Byte 0 is the command byte of the frame's direction and address (R71). -/
theorem commandByte_dir_addr (f : Frame) : commandByte f.dir f.addr = f.b0 := by
  simp only [Frame.dir, Frame.addr]
  generalize f.b0 = b; revert b; decide

/-- The write bit of a command byte (R70). -/
theorem commandByte_testBit (d : Dir) (a : RegAddr) : (commandByte d a).toNat.testBit 7 = (d == .write) := by
  revert a; cases d <;> decide

/-- The address bits of a command byte (R70). -/
theorem commandByte_mod (d : Dir) (a : RegAddr) : (commandByte d a).toNat % 0x80 = a.toNat := by
  revert a; cases d <;> decide

/-- An accepted address is its own 7 bits (R97: "the mask never changes an accepted address"). -/
theorem ofInt7_toNat {a : Int} (h : 0 ≤ a ∧ a ≤ 0x7F) : ((BitVec.ofInt 7 a).toNat : Int) = a := by
  rw [BitVec.toNat_ofInt]; omega

/-- A wire frame decodes to no host command. -/
theorem decodeWire_isCommand (f : Frame) : (decodeWire f).isCommand = false := by
  unfold decodeWire; split
  · unfold decodeWriteFrame; split <;> rfl
  · unfold decodeReadFrame; split <;> rfl

/-- A command word decodes to host commands only. -/
theorem decodeCommand_isCommand {w : CommandWord} {i : Instr} (h : decodeCommand w = .ok i) : i.isCommand = true := by
  unfold decodeCommand at h
  split at h <;> (try split at h) <;> cases h <;> rfl

end Sys2Proof
end

