-- ==== Sys2Proof/Laws/State.lean ====
section
/-!
SUPPORT. One lemma per field per update of the state, each true by unfolding the update once.
-/

namespace Sys2Proof.Machine

/-! ## `finish` -/

@[simp] theorem finish_par (r : Response) (s : State) : (s.finish r).par = s.par := rfl
@[simp] theorem finish_before (r : Response) (s : State) : (s.finish r).before = s.before := rfl
@[simp] theorem finish_after (r : Response) (s : State) : (s.finish r).after = s.after := rfl
@[simp] theorem finish_lock (r : Response) (s : State) : (s.finish r).lock = s.lock := rfl
@[simp] theorem finish_bus (r : Response) (s : State) : (s.finish r).bus = s.bus := rfl
@[simp] theorem finish_answers (r : Response) (s : State) : (s.finish r).answers = s.answers := rfl
@[simp] theorem finish_draws (r : Response) (s : State) : (s.finish r).draws = s.draws := rfl
@[simp] theorem finish_turns (r : Response) (s : State) : (s.finish r).turns = s.turns := rfl
@[simp] theorem finish_ticks (r : Response) (s : State) : (s.finish r).ticks = s.ticks := rfl
@[simp] theorem finish_ax_chip (r : Response) (s : State) : (s.finish r).ax.chip = s.ax.chip := rfl
@[simp] theorem finish_ax_busy (r : Response) (s : State) : (s.finish r).ax.busy = false := rfl
@[simp] theorem finish_ax_cur (r : Response) (s : State) : (s.finish r).ax.cur = none := rfl
@[simp] theorem finish_ax_upc (r : Response) (s : State) : (s.finish r).ax.upc = s.ax.upc := rfl
@[simp] theorem finish_ax_npoll (r : Response) (s : State) : (s.finish r).ax.npoll = s.ax.npoll := rfl
@[simp] theorem finish_ax_flags (r : Response) (s : State) : (s.finish r).ax.flags = s.ax.flags := rfl
@[simp] theorem finish_ax_configured (r : Response) (s : State) : (s.finish r).ax.configured = s.ax.configured := rfl
@[simp] theorem finish_ax_cfgRun (r : Response) (s : State) : (s.finish r).ax.cfgRun = s.ax.cfgRun := rfl
@[simp] theorem finish_ax_cfgHold (r : Response) (s : State) : (s.finish r).ax.cfgHold = s.ax.cfgHold := rfl
@[simp] theorem finish_ax_cfgA (r : Response) (s : State) : (s.finish r).ax.cfgA = s.ax.cfgA := rfl
@[simp] theorem finish_ax_cfgV (r : Response) (s : State) : (s.finish r).ax.cfgV = s.ax.cfgV := rfl
@[simp] theorem finish_ax_resp (r : Response) (s : State) : (s.finish r).ax.resp = some r := rfl
@[simp] theorem finish_ax_rx (r : Response) (s : State) : (s.finish r).ax.rx = none := rfl
@[simp] theorem finish_ax_cs (r : Response) (s : State) : (s.finish r).ax.cs = s.ax.cs := rfl
@[simp] theorem finish_ax_port (r : Response) (s : State) : (s.finish r).ax.port = s.ax.port := rfl
@[simp] theorem finish_ax_wireIn (r : Response) (s : State) : (s.finish r).ax.wireIn = s.ax.wireIn := rfl

/-! ## `busCycle` -/

@[simp] theorem busCycle_par (out : Frame) (s : State) : (s.busCycle out).par = s.par := rfl
@[simp] theorem busCycle_before (out : Frame) (s : State) : (s.busCycle out).before = s.before := rfl
@[simp] theorem busCycle_after (out : Frame) (s : State) : (s.busCycle out).after = s.after := rfl
@[simp] theorem busCycle_lock (out : Frame) (s : State) : (s.busCycle out).lock = none := rfl
@[simp] theorem busCycle_answers (out : Frame) (s : State) : (s.busCycle out).answers = s.answers.tail := rfl
@[simp] theorem busCycle_draws (out : Frame) (s : State) : (s.busCycle out).draws = s.draws + 1 := rfl
@[simp] theorem busCycle_turns (out : Frame) (s : State) : (s.busCycle out).turns = s.turns := rfl
@[simp] theorem busCycle_ticks (out : Frame) (s : State) : (s.busCycle out).ticks = s.ticks := rfl
@[simp] theorem busCycle_ax_chip (out : Frame) (s : State) : (s.busCycle out).ax.chip = s.ax.chip := rfl
@[simp] theorem busCycle_ax_busy (out : Frame) (s : State) : (s.busCycle out).ax.busy = s.ax.busy := rfl
@[simp] theorem busCycle_ax_cur (out : Frame) (s : State) : (s.busCycle out).ax.cur = s.ax.cur := rfl
@[simp] theorem busCycle_ax_upc (out : Frame) (s : State) : (s.busCycle out).ax.upc = s.ax.upc := rfl
@[simp] theorem busCycle_ax_npoll (out : Frame) (s : State) : (s.busCycle out).ax.npoll = s.ax.npoll := rfl
@[simp] theorem busCycle_ax_flags (out : Frame) (s : State) : (s.busCycle out).ax.flags = s.ax.flags := rfl
@[simp] theorem busCycle_ax_configured (out : Frame) (s : State) : (s.busCycle out).ax.configured = s.ax.configured := rfl
@[simp] theorem busCycle_ax_cfgRun (out : Frame) (s : State) : (s.busCycle out).ax.cfgRun = s.ax.cfgRun := rfl
@[simp] theorem busCycle_ax_cfgHold (out : Frame) (s : State) : (s.busCycle out).ax.cfgHold = s.ax.cfgHold := rfl
@[simp] theorem busCycle_ax_cfgA (out : Frame) (s : State) : (s.busCycle out).ax.cfgA = s.ax.cfgA := rfl
@[simp] theorem busCycle_ax_cfgV (out : Frame) (s : State) : (s.busCycle out).ax.cfgV = s.ax.cfgV := rfl
@[simp] theorem busCycle_ax_resp (out : Frame) (s : State) : (s.busCycle out).ax.resp = s.ax.resp := rfl
@[simp] theorem busCycle_ax_rx (out : Frame) (s : State) : (s.busCycle out).ax.rx = s.ax.rx := rfl
@[simp] theorem busCycle_ax_cs (out : Frame) (s : State) : (s.busCycle out).ax.cs = false := rfl
@[simp] theorem busCycle_ax_port (out : Frame) (s : State) : (s.busCycle out).ax.port = s.ax.port := rfl
@[simp] theorem busCycle_ax_wireIn (out : Frame) (s : State) : (s.busCycle out).ax.wireIn = s.ax.wireIn := rfl

/-! ## `accept` -/

@[simp] theorem accept_par (i : Instr) (s : State) : (s.accept i).par = s.par := rfl
@[simp] theorem accept_before (i : Instr) (s : State) : (s.accept i).before = s.before := rfl
@[simp] theorem accept_after (i : Instr) (s : State) : (s.accept i).after = s.after := rfl
@[simp] theorem accept_lock (i : Instr) (s : State) : (s.accept i).lock = s.lock := rfl
@[simp] theorem accept_bus (i : Instr) (s : State) : (s.accept i).bus = s.bus := rfl
@[simp] theorem accept_answers (i : Instr) (s : State) : (s.accept i).answers = s.answers := rfl
@[simp] theorem accept_draws (i : Instr) (s : State) : (s.accept i).draws = s.draws := rfl
@[simp] theorem accept_turns (i : Instr) (s : State) : (s.accept i).turns = s.turns := rfl
@[simp] theorem accept_ticks (i : Instr) (s : State) : (s.accept i).ticks = s.ticks := rfl
@[simp] theorem accept_ax_chip (i : Instr) (s : State) : (s.accept i).ax.chip = s.ax.chip := rfl
@[simp] theorem accept_ax_busy (i : Instr) (s : State) : (s.accept i).ax.busy = true := rfl
@[simp] theorem accept_ax_cur (i : Instr) (s : State) : (s.accept i).ax.cur = some i := rfl
@[simp] theorem accept_ax_upc (i : Instr) (s : State) : (s.accept i).ax.upc = if i.isReserved then s.ax.upc else 0 := rfl
@[simp] theorem accept_ax_npoll (i : Instr) (s : State) :
    (s.accept i).ax.npoll = if i.isReserved then s.ax.npoll else 0 := rfl
@[simp] theorem accept_ax_flags (i : Instr) (s : State) : (s.accept i).ax.flags = s.ax.flags := rfl
@[simp] theorem accept_ax_configured (i : Instr) (s : State) : (s.accept i).ax.configured = s.ax.configured := rfl
@[simp] theorem accept_ax_cfgRun (i : Instr) (s : State) : (s.accept i).ax.cfgRun = s.ax.cfgRun := rfl
@[simp] theorem accept_ax_cfgHold (i : Instr) (s : State) : (s.accept i).ax.cfgHold = s.ax.cfgHold := rfl
@[simp] theorem accept_ax_cfgA (i : Instr) (s : State) : (s.accept i).ax.cfgA = s.ax.cfgA := rfl
@[simp] theorem accept_ax_cfgV (i : Instr) (s : State) : (s.accept i).ax.cfgV = s.ax.cfgV := rfl
@[simp] theorem accept_ax_resp (i : Instr) (s : State) : (s.accept i).ax.resp = s.ax.resp := rfl
@[simp] theorem accept_ax_rx (i : Instr) (s : State) : (s.accept i).ax.rx = s.ax.rx := rfl
@[simp] theorem accept_ax_cs (i : Instr) (s : State) : (s.accept i).ax.cs = s.ax.cs := rfl
@[simp] theorem accept_ax_port (i : Instr) (s : State) : (s.accept i).ax.port = s.ax.port.tail := rfl
@[simp] theorem accept_ax_wireIn (i : Instr) (s : State) : (s.accept i).ax.wireIn = s.ax.wireIn := rfl

/-! ## `afterFrame` -/

@[simp] theorem afterFrame_par (s : State) (out r : Frame) (pos : Nat) : (s.afterFrame out r pos).par = s.par := rfl
@[simp] theorem afterFrame_before (s : State) (out r : Frame) (pos : Nat) :
    (s.afterFrame out r pos).before = s.before := rfl
@[simp] theorem afterFrame_after (s : State) (out r : Frame) (pos : Nat) :
    (s.afterFrame out r pos).after = s.after := rfl
@[simp] theorem afterFrame_lock (s : State) (out r : Frame) (pos : Nat) : (s.afterFrame out r pos).lock = none := rfl
@[simp] theorem afterFrame_bus (s : State) (out r : Frame) (pos : Nat) :
    (s.afterFrame out r pos).bus = s.bus ++ exchangeEvents s.ax.chip out (.frame r) := rfl
@[simp] theorem afterFrame_answers (s : State) (out r : Frame) (pos : Nat) :
    (s.afterFrame out r pos).answers = s.answers.tail := rfl
@[simp] theorem afterFrame_draws (s : State) (out r : Frame) (pos : Nat) :
    (s.afterFrame out r pos).draws = s.draws + 1 := rfl
@[simp] theorem afterFrame_turns (s : State) (out r : Frame) (pos : Nat) :
    (s.afterFrame out r pos).turns = s.turns := rfl
@[simp] theorem afterFrame_ticks (s : State) (out r : Frame) (pos : Nat) :
    (s.afterFrame out r pos).ticks = s.ticks := rfl
@[simp] theorem afterFrame_ax_chip (s : State) (out r : Frame) (pos : Nat) :
    (s.afterFrame out r pos).ax.chip = s.ax.chip := rfl
@[simp] theorem afterFrame_ax_busy (s : State) (out r : Frame) (pos : Nat) :
    (s.afterFrame out r pos).ax.busy = s.ax.busy := rfl
@[simp] theorem afterFrame_ax_cur (s : State) (out r : Frame) (pos : Nat) :
    (s.afterFrame out r pos).ax.cur = s.ax.cur := rfl
@[simp] theorem afterFrame_ax_upc (s : State) (out r : Frame) (pos : Nat) :
    (s.afterFrame out r pos).ax.upc = pos := rfl
@[simp] theorem afterFrame_ax_npoll (s : State) (out r : Frame) (pos : Nat) :
    (s.afterFrame out r pos).ax.npoll = s.ax.npoll := rfl
@[simp] theorem afterFrame_ax_flags (s : State) (out r : Frame) (pos : Nat) :
    (s.afterFrame out r pos).ax.flags = some r.b0 := rfl
@[simp] theorem afterFrame_ax_configured (s : State) (out r : Frame) (pos : Nat) :
    (s.afterFrame out r pos).ax.configured = s.ax.configured := rfl
@[simp] theorem afterFrame_ax_cfgRun (s : State) (out r : Frame) (pos : Nat) :
    (s.afterFrame out r pos).ax.cfgRun = s.ax.cfgRun := rfl
@[simp] theorem afterFrame_ax_cfgHold (s : State) (out r : Frame) (pos : Nat) :
    (s.afterFrame out r pos).ax.cfgHold = s.ax.cfgHold := rfl
@[simp] theorem afterFrame_ax_cfgA (s : State) (out r : Frame) (pos : Nat) :
    (s.afterFrame out r pos).ax.cfgA = s.ax.cfgA := rfl
@[simp] theorem afterFrame_ax_cfgV (s : State) (out r : Frame) (pos : Nat) :
    (s.afterFrame out r pos).ax.cfgV = s.ax.cfgV := rfl
@[simp] theorem afterFrame_ax_resp (s : State) (out r : Frame) (pos : Nat) :
    (s.afterFrame out r pos).ax.resp = s.ax.resp := rfl
@[simp] theorem afterFrame_ax_rx (s : State) (out r : Frame) (pos : Nat) :
    (s.afterFrame out r pos).ax.rx = some r := rfl
@[simp] theorem afterFrame_ax_cs (s : State) (out r : Frame) (pos : Nat) :
    (s.afterFrame out r pos).ax.cs = false := rfl
@[simp] theorem afterFrame_ax_port (s : State) (out r : Frame) (pos : Nat) :
    (s.afterFrame out r pos).ax.port = s.ax.port := rfl
@[simp] theorem afterFrame_ax_wireIn (s : State) (out r : Frame) (pos : Nat) :
    (s.afterFrame out r pos).ax.wireIn = s.ax.wireIn := rfl

/-! ## `afterWireFrame` -/

@[simp] theorem afterWireFrame_par (s : State) (out r : Frame) : (s.afterWireFrame out r).par = s.par := rfl
@[simp] theorem afterWireFrame_before (s : State) (out r : Frame) :
    (s.afterWireFrame out r).before = s.before := rfl
@[simp] theorem afterWireFrame_after (s : State) (out r : Frame) :
    (s.afterWireFrame out r).after = s.after := rfl
@[simp] theorem afterWireFrame_lock (s : State) (out r : Frame) : (s.afterWireFrame out r).lock = none := rfl
@[simp] theorem afterWireFrame_bus (s : State) (out r : Frame) :
    (s.afterWireFrame out r).bus = s.bus ++ exchangeEvents s.ax.chip out (.frame r) := rfl
@[simp] theorem afterWireFrame_answers (s : State) (out r : Frame) :
    (s.afterWireFrame out r).answers = s.answers.tail := rfl
@[simp] theorem afterWireFrame_draws (s : State) (out r : Frame) :
    (s.afterWireFrame out r).draws = s.draws + 1 := rfl
@[simp] theorem afterWireFrame_turns (s : State) (out r : Frame) :
    (s.afterWireFrame out r).turns = s.turns := rfl
@[simp] theorem afterWireFrame_ticks (s : State) (out r : Frame) :
    (s.afterWireFrame out r).ticks = s.ticks := rfl
@[simp] theorem afterWireFrame_ax_chip (s : State) (out r : Frame) :
    (s.afterWireFrame out r).ax.chip = s.ax.chip := rfl
@[simp] theorem afterWireFrame_ax_busy (s : State) (out r : Frame) :
    (s.afterWireFrame out r).ax.busy = s.ax.busy := rfl
@[simp] theorem afterWireFrame_ax_cur (s : State) (out r : Frame) :
    (s.afterWireFrame out r).ax.cur = s.ax.cur := rfl
@[simp] theorem afterWireFrame_ax_upc (s : State) (out r : Frame) :
    (s.afterWireFrame out r).ax.upc = s.ax.upc := rfl
@[simp] theorem afterWireFrame_ax_npoll (s : State) (out r : Frame) :
    (s.afterWireFrame out r).ax.npoll = s.ax.npoll := rfl
@[simp] theorem afterWireFrame_ax_flags (s : State) (out r : Frame) :
    (s.afterWireFrame out r).ax.flags = some r.b0 := rfl
@[simp] theorem afterWireFrame_ax_configured (s : State) (out r : Frame) :
    (s.afterWireFrame out r).ax.configured = s.ax.configured := rfl
@[simp] theorem afterWireFrame_ax_cfgRun (s : State) (out r : Frame) :
    (s.afterWireFrame out r).ax.cfgRun = s.ax.cfgRun := rfl
@[simp] theorem afterWireFrame_ax_cfgHold (s : State) (out r : Frame) :
    (s.afterWireFrame out r).ax.cfgHold = s.ax.cfgHold := rfl
@[simp] theorem afterWireFrame_ax_cfgA (s : State) (out r : Frame) :
    (s.afterWireFrame out r).ax.cfgA = s.ax.cfgA := rfl
@[simp] theorem afterWireFrame_ax_cfgV (s : State) (out r : Frame) :
    (s.afterWireFrame out r).ax.cfgV = s.ax.cfgV := rfl
@[simp] theorem afterWireFrame_ax_resp (s : State) (out r : Frame) :
    (s.afterWireFrame out r).ax.resp = s.ax.resp := rfl
@[simp] theorem afterWireFrame_ax_rx (s : State) (out r : Frame) :
    (s.afterWireFrame out r).ax.rx = s.ax.rx := rfl
@[simp] theorem afterWireFrame_ax_cs (s : State) (out r : Frame) :
    (s.afterWireFrame out r).ax.cs = false := rfl
@[simp] theorem afterWireFrame_ax_port (s : State) (out r : Frame) :
    (s.afterWireFrame out r).ax.port = s.ax.port := rfl
@[simp] theorem afterWireFrame_ax_wireIn (s : State) (out r : Frame) :
    (s.afterWireFrame out r).ax.wireIn = s.ax.wireIn := rfl

/-! ## `afterTransportError` -/

@[simp] theorem afterTransportError_par (s : State) (out : Frame) (e : TransportError) :
    (s.afterTransportError out e).par = s.par := rfl
@[simp] theorem afterTransportError_before (s : State) (out : Frame) (e : TransportError) :
    (s.afterTransportError out e).before = s.before := rfl
@[simp] theorem afterTransportError_after (s : State) (out : Frame) (e : TransportError) :
    (s.afterTransportError out e).after = s.after := rfl
@[simp] theorem afterTransportError_lock (s : State) (out : Frame) (e : TransportError) :
    (s.afterTransportError out e).lock = none := rfl
@[simp] theorem afterTransportError_bus (s : State) (out : Frame) (e : TransportError) :
    (s.afterTransportError out e).bus = s.bus ++ exchangeEvents s.ax.chip out (.error e) := rfl
@[simp] theorem afterTransportError_answers (s : State) (out : Frame) (e : TransportError) :
    (s.afterTransportError out e).answers = s.answers.tail := rfl
@[simp] theorem afterTransportError_draws (s : State) (out : Frame) (e : TransportError) :
    (s.afterTransportError out e).draws = s.draws + 1 := rfl
@[simp] theorem afterTransportError_turns (s : State) (out : Frame) (e : TransportError) :
    (s.afterTransportError out e).turns = s.turns := rfl
@[simp] theorem afterTransportError_ticks (s : State) (out : Frame) (e : TransportError) :
    (s.afterTransportError out e).ticks = s.ticks := rfl
@[simp] theorem afterTransportError_ax_chip (s : State) (out : Frame) (e : TransportError) :
    (s.afterTransportError out e).ax.chip = s.ax.chip := rfl
@[simp] theorem afterTransportError_ax_busy (s : State) (out : Frame) (e : TransportError) :
    (s.afterTransportError out e).ax.busy = false := rfl
@[simp] theorem afterTransportError_ax_cur (s : State) (out : Frame) (e : TransportError) :
    (s.afterTransportError out e).ax.cur = none := rfl
@[simp] theorem afterTransportError_ax_upc (s : State) (out : Frame) (e : TransportError) :
    (s.afterTransportError out e).ax.upc = s.ax.upc := rfl
@[simp] theorem afterTransportError_ax_npoll (s : State) (out : Frame) (e : TransportError) :
    (s.afterTransportError out e).ax.npoll = s.ax.npoll := rfl
@[simp] theorem afterTransportError_ax_flags (s : State) (out : Frame) (e : TransportError) :
    (s.afterTransportError out e).ax.flags = s.ax.flags := rfl
@[simp] theorem afterTransportError_ax_configured (s : State) (out : Frame) (e : TransportError) :
    (s.afterTransportError out e).ax.configured = s.ax.configured := rfl
@[simp] theorem afterTransportError_ax_cfgRun (s : State) (out : Frame) (e : TransportError) :
    (s.afterTransportError out e).ax.cfgRun = s.ax.cfgRun := rfl
@[simp] theorem afterTransportError_ax_cfgHold (s : State) (out : Frame) (e : TransportError) :
    (s.afterTransportError out e).ax.cfgHold = s.ax.cfgHold := rfl
@[simp] theorem afterTransportError_ax_cfgA (s : State) (out : Frame) (e : TransportError) :
    (s.afterTransportError out e).ax.cfgA = s.ax.cfgA := rfl
@[simp] theorem afterTransportError_ax_cfgV (s : State) (out : Frame) (e : TransportError) :
    (s.afterTransportError out e).ax.cfgV = s.ax.cfgV := rfl
@[simp] theorem afterTransportError_ax_resp (s : State) (out : Frame) (e : TransportError) :
    (s.afterTransportError out e).ax.resp = some (Response.bad .eTransport (some (.transport e)) s.ax.flags) := rfl
@[simp] theorem afterTransportError_ax_rx (s : State) (out : Frame) (e : TransportError) :
    (s.afterTransportError out e).ax.rx = none := rfl
@[simp] theorem afterTransportError_ax_cs (s : State) (out : Frame) (e : TransportError) :
    (s.afterTransportError out e).ax.cs = false := rfl
@[simp] theorem afterTransportError_ax_port (s : State) (out : Frame) (e : TransportError) :
    (s.afterTransportError out e).ax.port = s.ax.port := rfl
@[simp] theorem afterTransportError_ax_wireIn (s : State) (out : Frame) (e : TransportError) :
    (s.afterTransportError out e).ax.wireIn = s.ax.wireIn := rfl

/-! ## `afterResponse` -/

@[simp] theorem afterResponse_par (s : State) (r : Response) : (s.afterResponse r).par = s.par := rfl
@[simp] theorem afterResponse_before (s : State) (r : Response) : (s.afterResponse r).before = s.before := rfl
@[simp] theorem afterResponse_after (s : State) (r : Response) : (s.afterResponse r).after = s.after := rfl
@[simp] theorem afterResponse_lock (s : State) (r : Response) : (s.afterResponse r).lock = s.lock := rfl
@[simp] theorem afterResponse_bus (s : State) (r : Response) : (s.afterResponse r).bus = s.bus := rfl
@[simp] theorem afterResponse_answers (s : State) (r : Response) : (s.afterResponse r).answers = s.answers := rfl
@[simp] theorem afterResponse_draws (s : State) (r : Response) : (s.afterResponse r).draws = s.draws := rfl
@[simp] theorem afterResponse_turns (s : State) (r : Response) : (s.afterResponse r).turns = s.turns := rfl
@[simp] theorem afterResponse_ticks (s : State) (r : Response) : (s.afterResponse r).ticks = s.ticks := rfl
@[simp] theorem afterResponse_ax_chip (s : State) (r : Response) : (s.afterResponse r).ax.chip = s.ax.chip := rfl
@[simp] theorem afterResponse_ax_busy (s : State) (r : Response) : (s.afterResponse r).ax.busy = false := rfl
@[simp] theorem afterResponse_ax_cur (s : State) (r : Response) : (s.afterResponse r).ax.cur = none := rfl
@[simp] theorem afterResponse_ax_upc (s : State) (r : Response) : (s.afterResponse r).ax.upc = s.ax.upc := rfl
@[simp] theorem afterResponse_ax_npoll (s : State) (r : Response) : (s.afterResponse r).ax.npoll = s.ax.npoll := rfl
@[simp] theorem afterResponse_ax_flags (s : State) (r : Response) : (s.afterResponse r).ax.flags = s.ax.flags := rfl
@[simp] theorem afterResponse_ax_configured (s : State) (r : Response) :
    (s.afterResponse r).ax.configured = s.ax.configured := rfl
@[simp] theorem afterResponse_ax_cfgRun (s : State) (r : Response) :
    (s.afterResponse r).ax.cfgRun = s.ax.cfgRun := rfl
@[simp] theorem afterResponse_ax_cfgHold (s : State) (r : Response) :
    (s.afterResponse r).ax.cfgHold = s.ax.cfgHold := rfl
@[simp] theorem afterResponse_ax_cfgA (s : State) (r : Response) : (s.afterResponse r).ax.cfgA = s.ax.cfgA := rfl
@[simp] theorem afterResponse_ax_cfgV (s : State) (r : Response) : (s.afterResponse r).ax.cfgV = s.ax.cfgV := rfl
@[simp] theorem afterResponse_ax_resp (s : State) (r : Response) : (s.afterResponse r).ax.resp = some r := rfl
@[simp] theorem afterResponse_ax_rx (s : State) (r : Response) : (s.afterResponse r).ax.rx = none := rfl
@[simp] theorem afterResponse_ax_cs (s : State) (r : Response) : (s.afterResponse r).ax.cs = s.ax.cs := rfl
@[simp] theorem afterResponse_ax_port (s : State) (r : Response) : (s.afterResponse r).ax.port = s.ax.port := rfl
@[simp] theorem afterResponse_ax_wireIn (s : State) (r : Response) :
    (s.afterResponse r).ax.wireIn = s.ax.wireIn := rfl

/-- The bus after an exchange: the five events of R62, in order. -/
@[simp] theorem busCycle_bus (out : Frame) (s : State) :
    (s.busCycle out).bus = s.bus ++ exchangeEvents s.ax.chip out s.answer := by
  simp [State.busCycle, State.acquire, State.selectChip, State.exchange, State.deselectChip, State.release,
    State.answer, exchangeEvents]

@[simp] theorem respond_eq_finish (fields : Response → Response) (s : State) :
    s.respond fields = s.finish (fields (Response.blank s.ax)) := rfl

@[simp] theorem raise_eq_finish (e : Error) (s : State) :
    s.raise e = s.finish { Response.blank s.ax with status := e.status, info := e.info } := rfl

@[simp] theorem blank_flags (a : Axis) : (Response.blank a).flags = a.flags := rfl
@[simp] theorem blank_flagsValid (a : Axis) : (Response.blank a).flagsValid = a.flags.isSome := rfl
@[simp] theorem blank_status (a : Axis) : (Response.blank a).status = .ok := rfl

@[simp] theorem axes_def (s : State) : s.axes = s.before ++ s.ax :: s.after := rfl

end Sys2Proof.Machine
end

