-- ==== Sys2Proof/Laws/Ops.lean ====
section
/-!
SUPPORT. One lemma per shared operation that says everything it can do; the meanings' proofs cite these instead of unfolding
the operations.
-/

namespace Sys2Proof.Machine

/-! ## The codec -/

theorem inRegSpace_iff (a : Int) : inRegSpace a = true ↔ 0 ≤ a ∧ a ≤ 0x7F := by
  simp [inRegSpace]

theorem inS32_iff (v : Int) : inS32 v = true ↔ -2 ^ 31 ≤ v ∧ v ≤ 2 ^ 31 - 1 := by
  simp [inS32]

/-- `encode_frame` succeeds on exactly the accepted operands, with one frame. -/
theorem encodeFrame_ok_iff (d : Dir) (a v : Int) (f : Frame) :
    encodeFrame d a v = .ok f ↔
      inRegSpace a = true ∧ inS32 v = true ∧ f = Frame.ofParts (commandByte d (BitVec.ofInt 7 a)) (u32 v) := by
  unfold encodeFrame checkEncode
  cases inRegSpace a <;> cases inS32 v <;> simp [eq_comm]

theorem encodeFrame_of_inRange (d : Dir) {a v : Int} (ha : inRegSpace a = true) (hv : inS32 v = true) :
    encodeFrame d a v = .ok (Frame.ofParts (commandByte d (BitVec.ofInt 7 a)) (u32 v)) :=
  (encodeFrame_ok_iff d a v _).2 ⟨ha, hv, rfl⟩

/-- `encode_frame` fails with the address's error first, then the value's. -/
theorem encodeFrame_error_iff (d : Dir) (a v : Int) (e : Error) :
    encodeFrame d a v = .error e ↔
      (inRegSpace a = false ∧ e = .encoding .address a) ∨
      (inRegSpace a = true ∧ inS32 v = false ∧ e = .encoding .value v) := by
  unfold encodeFrame checkEncode
  cases inRegSpace a <;> cases inS32 v <;> simp [eq_comm]

theorem s32_mem (r : Word32) : inS32 (s32 r) = true := by
  rw [inS32_iff]; unfold s32; have := r.isLt; split <;> omega

/-- A named register's address is in the register space (R35). -/
theorem reg_inRegSpace (r : Reg) : inRegSpace r.addr = true := by cases r <;> decide

/-! ## The exchange -/

/-- What a bus cycle leaves, written out. -/
theorem busCycle_eq (out : Frame) (s : State) :
    s.busCycle out =
      { s with
        lock := none
        bus := s.bus ++ exchangeEvents s.ax.chip out s.answer
        answers := s.answers.tail
        draws := s.draws + 1
        ax := { s.ax with cs := false } } := by
  simp [State.busCycle, State.acquire, State.selectChip, State.exchange, State.deselectChip, State.release,
    State.answer, exchangeEvents]

/-- An exchange outside any command the transport answers with a frame. -/
theorem xchgKeeping_frame {s : State} {r : Frame} (h : s.answer = .frame r) (out : Frame) :
    s.xchgKeeping (fun _ a => a) out = s.afterWireFrame out r := by
  unfold State.xchgKeeping
  rw [busCycle_eq, h]
  rfl

/-- An exchange the transport answers with an error, whatever would have been kept. -/
theorem xchgKeeping_error {s : State} {e : TransportError} (h : s.answer = .error e) (keep : Frame → Axis → Axis)
    (out : Frame) : s.xchgKeeping keep out = s.afterTransportError out e := by
  unfold State.xchgKeeping
  rw [busCycle_eq, h]
  rfl

/-- An exchange the transport answers with a frame. -/
theorem xchg_frame {s : State} {r : Frame} (h : s.answer = .frame r) (out : Frame) (pos : Nat) :
    s.xchg out pos = s.afterFrame out r pos := by
  unfold State.xchg State.xchgKeeping
  rw [busCycle_eq, h]
  rfl

/-- An exchange the transport answers with an error. -/
theorem xchg_error {s : State} {e : TransportError} (h : s.answer = .error e) (out : Frame) (pos : Nat) :
    s.xchg out pos = s.afterTransportError out e := xchgKeeping_error h _ out

/-- Everything an exchange can do. -/
theorem xchg_cases (s : State) (out : Frame) (pos : Nat) :
    (∃ r, s.answer = .frame r ∧ s.xchg out pos = s.afterFrame out r pos) ∨
    (∃ e, s.answer = .error e ∧ s.xchg out pos = s.afterTransportError out e) := by
  cases h : s.answer with
  | frame r => exact .inl ⟨r, rfl, xchg_frame h out pos⟩
  | error e => exact .inr ⟨e, rfl, xchg_error h out pos⟩

theorem whenBusFree_free {s : State} (h : s.lock = none) (t : State) : t.whenBusFree s = t := by
  simp [State.whenBusFree, h]

theorem whenBusFree_held {s : State} {c : Nat} (h : s.lock = some c) (t : State) : t.whenBusFree s = s := by
  simp [State.whenBusFree, h]

theorem raise_encoding (s : State) (field : EncodingField) (got : Int) :
    s.raise (.encoding field got) =
      s.afterResponse (Response.bad .eEncoding (some (.encoding field got)) s.ax.flags) := rfl

/-- Everything a logical write can do: it raises an encoding error, waits for the bus, or exchanges the frame. -/
theorem logicalWrite_cases (s : State) (a v : Int) (pos : Nat) (latched : State) :
    (∃ e, encodeFrame .write a v = .error e ∧ s.logicalWrite a v pos latched = latched.raise e) ∨
    (∃ out, encodeFrame .write a v = .ok out ∧
      ((s.lock ≠ none ∧ s.logicalWrite a v pos latched = s) ∨
       (s.lock = none ∧ s.logicalWrite a v pos latched = latched.xchg out pos))) := by
  unfold State.logicalWrite
  cases encodeFrame .write a v with
  | error e => exact .inl ⟨e, rfl, rfl⟩
  | ok out =>
    refine .inr ⟨out, rfl, ?_⟩
    cases h : s.lock with
    | none => exact .inr ⟨rfl, whenBusFree_free h _⟩
    | some c => exact .inl ⟨by simp, whenBusFree_held h _⟩

/-- Everything one exchange of a logical read can do. -/
theorem readExchange_cases (s : State) (a : Int) (pos : Nat) :
    (∃ e, encodeFrame .read a 0 = .error e ∧ s.readExchange a pos = s.raise e) ∨
    (∃ out, encodeFrame .read a 0 = .ok out ∧
      ((s.lock ≠ none ∧ s.readExchange a pos = s) ∨
       (s.lock = none ∧ s.readExchange a pos = s.xchg out pos))) := by
  unfold State.readExchange
  cases encodeFrame .read a 0 with
  | error e => exact .inl ⟨e, rfl, rfl⟩
  | ok out =>
    refine .inr ⟨out, rfl, ?_⟩
    cases h : s.lock with
    | none => exact .inr ⟨rfl, whenBusFree_free h _⟩
    | some c => exact .inl ⟨by simp, whenBusFree_held h _⟩

/-! ## The bus record -/

theorem bracketed_append (es fs : List BusEvent) (h : bracketed es = true) :
    bracketed (es ++ fs) = bracketed fs := by
  induction es using bracketed.induct with
  | case1 => rfl
  | case2 c c1 c2 o a c3 c4 rest ih =>
    simp only [bracketed, Bool.and_eq_true] at h
    simp only [List.cons_append, bracketed, h.1, Bool.true_and]
    exact ih h.2
  | case3 es h1 h2 =>
    exfalso
    unfold bracketed at h
    split at h
    · exact h1 rfl
    · exact h2 _ _ _ _ _ _ _ _ rfl
    · cases h

@[simp] theorem bracketed_exchangeEvents (chip : Nat) (out : Frame) (a : Answer) :
    bracketed (exchangeEvents chip out a) = true := by simp [exchangeEvents, bracketed]

/-! ## Turns -/

/-- Giving the turn to another axis changes no axis, and nothing else. -/
theorem focus_axes (k : Nat) (s : State) : (s.focus k).axes = s.axes := by
  unfold State.focus
  split
  · rename_i a rest h
    simp only [State.axes]
    rw [← h]
    exact List.take_append_drop k s.axes
  · rfl

/-- The axis that has the turn, where the number names one. -/
theorem focus_ax {k : Nat} {s : State} (h : k < s.axes.length) : (s.focus k).ax = s.axes[k] := by
  unfold State.focus
  rw [List.drop_eq_getElem_cons h]

theorem focus_rest (k : Nat) (s : State) :
    (s.focus k).par = s.par ∧ (s.focus k).lock = s.lock ∧ (s.focus k).bus = s.bus ∧
    (s.focus k).answers = s.answers ∧ (s.focus k).draws = s.draws ∧ (s.focus k).turns = s.turns ∧
    (s.focus k).ticks = s.ticks := by
  unfold State.focus; split <;> exact ⟨rfl, rfl, rfl, rfl, rfl, rfl, rfl⟩

/-- The axis that has the turn keeps it where its own number comes next. -/
theorem focus_self (s : State) : s.focus s.before.length = s := by
  unfold State.focus State.axes
  simp

theorem takeTurn_axes (s : State) : s.takeTurn.axes = s.axes := focus_axes _ _

/-! ## Fetching -/

/-- Everything an axis that has the turn can be about to do. -/
theorem fetch_cases (s : State) :
    (∃ i, s.ax.busy = true ∧ s.ax.cur = some i ∧ s.fetch = .run i s) ∨
    (∃ f, s.ax.busy = false ∧ s.ax.wireIn = some f ∧ s.lock = none ∧
      s.fetch = .run (decodeWire f) { s with ax := { s.ax with wireIn := none } }) ∨
    (∃ w rest i, s.ax.busy = false ∧ s.ax.wireIn = none ∧ s.ax.port = w :: rest ∧ decodeCommand w = .ok i ∧
      s.fetch = .run i (s.accept i)) ∨
    (∃ w rest e, s.ax.busy = false ∧ s.ax.wireIn = none ∧ s.ax.port = w :: rest ∧ decodeCommand w = .error e ∧
      s.fetch = .refuse (.badOperands w.cmd)) ∨
    s.fetch = .wait := by
  cases hb : s.ax.busy with
  | true =>
    cases hc : s.ax.cur with
    | none => right; right; right; right; simp [State.fetch, hb, hc]
    | some i => left; exact ⟨i, rfl, rfl, by simp [State.fetch, hb, hc]⟩
  | false =>
    right
    cases hf : s.ax.wireIn with
    | some f =>
      cases hl : s.lock with
      | none => left; exact ⟨f, rfl, rfl, rfl, by simp [State.fetch, hb, hf, hl]⟩
      | some c => right; right; right; simp [State.fetch, hb, hf, hl]
    | none =>
      right
      cases hp : s.ax.port with
      | nil => right; right; simp [State.fetch, hb, hf, hp]
      | cons w rest =>
        cases hd : decodeCommand w with
        | ok i => left; exact ⟨w, rest, i, rfl, rfl, rfl, hd, by simp [State.fetch, hb, hf, hp, hd]⟩
        | error e => right; left; exact ⟨w, rest, e, rfl, rfl, rfl, hd, by simp [State.fetch, hb, hf, hp, hd]⟩

end Sys2Proof.Machine
end

