-- ==== Sys2Proof/Laws/Exec.lean ====
section
/-!
SUPPORT. What a controller step can do, said once: it waits for the bus, ends the command, exchanges a frame, or is the
`wait()` of MOVE_ABS. Every rule about all instructions follows from `exec_cases`.
-/

namespace Sys2Proof.Machine

/-- What the step of an exchange may latch in its own axis before it: SETUP its configuration (R128), everything else
nothing. -/
def Latches (i : Instr) (s : State) (a : Axis) : Prop :=
  ((∀ speed t run hold, i ≠ .setup speed t run hold) ∧ a = s.ax) ∨
  ∃ speed t run hold, i = .setup speed t run hold ∧ a = setupLatch (setupResult s.par speed t run hold) s.ax.upc s.ax

/-- What the step of a response may write in its own axis before it: SETUP what it latched, or that it is configured
(R128); MOVE_ABS the count of polls (R137); everything else nothing. -/
def Settles (i : Instr) (s : State) (a : Axis) : Prop :=
  a = s.ax ∨ Latches i s a ∨
  (∃ speed t run hold, i = .setup speed t run hold ∧ s.ax.upc = 14 ∧ a = { s.ax with configured := true }) ∨
  (∃ target b, i = .moveAbs target b ∧ s.ax.upc = 6 ∧ a = { s.ax with npoll := s.ax.npoll + 1 })

/-- What frame the step of an exchange sends: a wire frame its own; a host command the frame of an accepted triple, with
value 0 for a read, at a named register other than GSTAT unless it is a raw command (R35, R39, R72). -/
def Sends (i : Instr) (out : Frame) : Prop :=
  i.isCommand = false ∨
  ∃ d a v, encodeFrame d a v = .ok out ∧ (d = .read → v = 0) ∧
    ((∃ reg : Reg, a = reg.addr ∧ reg ≠ .gstat) ∨ (∃ v', i = .writeReg a v') ∨ i = .readReg a)

/-- Where the answered exchange of a host command leaves the sequencer: it goes forward, not past its last position. -/
def Moves (i : Instr) (s : State) (pos : Nat) : Prop :=
  i.isCommand = true ∧ s.ax.upc < pos ∧ pos ≤ i.lastPosition ∧
    (∀ speed t run hold, i = .setup speed t run hold → pos = s.ax.upc + 1) ∧
    (∀ target b, i = .moveAbs target b → 5 ≤ pos → s.ax.npoll ∉ s.par.pollLimit ∨ 5 ≤ s.ax.upc)

/-- The six things a step can be. -/
def StepShape (i : Instr) (s t : State) : Prop :=
  (s.lock ≠ none ∧ t = s) ∨
  (∃ a r, Settles i s a ∧ t = { s with ax := a }.afterResponse r ∧ r.flagsValid = s.ax.flags.isSome ∧
    r.flags = s.ax.flags ∧ (r.status = .ok → r.info = none) ∧ r.Inv) ∨
  (∃ a out r pos, Latches i s a ∧ Sends i out ∧ Moves i s pos ∧ s.lock = none ∧ s.answer = .frame r ∧
    t = { s with ax := a }.afterFrame out r pos) ∨
  (∃ a out e, Latches i s a ∧ Sends i out ∧ s.lock = none ∧ s.answer = .error e ∧
    t = { s with ax := a }.afterTransportError out e) ∨
  (∃ target b, i = .moveAbs target b ∧ s.ax.upc = 6 ∧
    t = { s with ax := { s.ax with npoll := s.ax.npoll + 1, upc := 4 } }) ∨
  (∃ out r, i.isCommand = false ∧ s.lock = none ∧ s.answer = .frame r ∧ t = s.afterWireFrame out r)

/-! What SETUP's latch writes, register by register (R128). -/

theorem setupLatch_configured (c : SetupResult) (n : Nat) (a : Axis) :
    (setupLatch c n a).configured = if n = 0 then false else a.configured := by
  unfold setupLatch; split <;> simp_all

theorem setupLatch_cfgRun (c : SetupResult) (n : Nat) (a : Axis) :
    (setupLatch c n a).cfgRun = if n = 2 then some c.run else a.cfgRun := by
  unfold setupLatch; split <;> simp_all

theorem setupLatch_cfgHold (c : SetupResult) (n : Nat) (a : Axis) :
    (setupLatch c n a).cfgHold = if n = 2 then some c.hold else a.cfgHold := by
  unfold setupLatch; split <;> simp_all

theorem setupLatch_cfgA (c : SetupResult) (n : Nat) (a : Axis) :
    (setupLatch c n a).cfgA = if n = 5 then some c.a else a.cfgA := by
  unfold setupLatch; split <;> simp_all

theorem setupLatch_cfgV (c : SetupResult) (n : Nat) (a : Axis) :
    (setupLatch c n a).cfgV = if n = 5 then some c.v else a.cfgV := by
  unfold setupLatch; split <;> simp_all

/-- What every latch leaves unchanged in the axis. -/
theorem Settles.unchanged {i : Instr} {s : State} {a : Axis} (h : Settles i s a) :
    a.chip = s.ax.chip ∧ a.busy = s.ax.busy ∧ a.cur = s.ax.cur ∧ a.upc = s.ax.upc ∧ a.flags = s.ax.flags ∧
    a.resp = s.ax.resp ∧ a.rx = s.ax.rx ∧ a.cs = s.ax.cs ∧ a.port = s.ax.port ∧ a.wireIn = s.ax.wireIn := by
  rcases h with rfl | (⟨-, rfl⟩ | ⟨_, _, _, _, rfl, rfl⟩) | ⟨_, _, _, _, rfl, _, rfl⟩ | ⟨_, _, rfl, _, rfl⟩
  · exact ⟨rfl, rfl, rfl, rfl, rfl, rfl, rfl, rfl, rfl, rfl⟩
  · exact ⟨rfl, rfl, rfl, rfl, rfl, rfl, rfl, rfl, rfl, rfl⟩
  · unfold setupLatch; split <;> exact ⟨rfl, rfl, rfl, rfl, rfl, rfl, rfl, rfl, rfl, rfl⟩
  · exact ⟨rfl, rfl, rfl, rfl, rfl, rfl, rfl, rfl, rfl, rfl⟩
  · exact ⟨rfl, rfl, rfl, rfl, rfl, rfl, rfl, rfl, rfl, rfl⟩

/-- Only SETUP latches its configuration. -/
theorem Settles.config {i : Instr} {s : State} {a : Axis} (h : Settles i s a) :
    (a.configured = s.ax.configured ∧ a.cfgRun = s.ax.cfgRun ∧ a.cfgHold = s.ax.cfgHold ∧ a.cfgA = s.ax.cfgA ∧
      a.cfgV = s.ax.cfgV) ∨ ∃ speed t run hold, i = .setup speed t run hold := by
  rcases h with rfl | (⟨-, rfl⟩ | ⟨_, _, _, _, rfl, rfl⟩) | ⟨_, _, _, _, rfl, _, rfl⟩ | ⟨_, _, rfl, _, rfl⟩
  · exact .inl ⟨rfl, rfl, rfl, rfl, rfl⟩
  · exact .inl ⟨rfl, rfl, rfl, rfl, rfl⟩
  · exact .inr ⟨_, _, _, _, rfl⟩
  · exact .inr ⟨_, _, _, _, rfl⟩
  · exact .inl ⟨rfl, rfl, rfl, rfl, rfl⟩

/-- A step that exchanges counts no poll. -/
theorem Latches.npoll {i : Instr} {s : State} {a : Axis} (h : Latches i s a) : a.npoll = s.ax.npoll := by
  rcases h with ⟨-, rfl⟩ | ⟨_, _, _, _, rfl, rfl⟩
  · rfl
  · unfold setupLatch; split <;> rfl

/-- A step that only responds. -/
theorem StepShape.respond {i : Instr} {s : State} {a : Axis} (h : Settles i s a) (hf : a.flags = s.ax.flags)
    (fields : Response → Response)
    (hr : (fields (Response.blank a)).flagsValid = a.flags.isSome ∧ (fields (Response.blank a)).flags = a.flags ∧
      ((fields (Response.blank a)).status = .ok → (fields (Response.blank a)).info = none) ∧
      (fields (Response.blank a)).Inv) :
    StepShape i s ({ s with ax := a }.respond fields) := by
  refine .inr (.inl ⟨a, fields (Response.blank a), h, rfl, ?_⟩)
  rw [← hf]
  exact hr

theorem raised_inv (a : Axis) (e : Error) :
    ({ Response.blank a with status := e.status, info := e.info } : Response).Inv :=
  ⟨rfl, by simp [Response.blank], fun _ => ⟨rfl, rfl, rfl, rfl, rfl⟩⟩

/-- A step that only raises. -/
theorem StepShape.raise {i : Instr} {s : State} {a : Axis} (h : Settles i s a) (hf : a.flags = s.ax.flags)
    (e : Error) : StepShape i s ({ s with ax := a }.raise e) := by
  refine .inr (.inl ⟨a, _, h, rfl, ?_⟩)
  rw [← hf]
  exact ⟨rfl, rfl, by cases e <;> simp [Error.status], raised_inv a e⟩

/-- A step that is one exchange. -/
theorem StepShape.xchg {i : Instr} {s : State} {a : Axis} {out : Frame} {pos : Nat} (h : Latches i s a)
    (ho : Sends i out) (hp : Moves i s pos) (hl : s.lock = none) :
    StepShape i s ({ s with ax := a }.xchg out pos) := by
  rcases xchg_cases { s with ax := a } out pos with ⟨r, hr, he⟩ | ⟨e, hr, he⟩
  · exact .inr (.inr (.inl ⟨a, out, r, pos, h, ho, hp, hl, hr, he⟩))
  · exact .inr (.inr (.inr (.inl ⟨a, out, e, h, ho, hl, hr, he⟩)))

/-- A step that is one logical write. -/
theorem StepShape.logicalWrite {i : Instr} {s : State} {a : Axis} {addr v : Int} {pos : Nat} (h : Latches i s a)
    (hf : a.flags = s.ax.flags)
    (ho : (∃ reg : Reg, addr = reg.addr ∧ reg ≠ .gstat) ∨ ∃ v', i = .writeReg addr v') (hp : Moves i s pos) :
    StepShape i s (s.logicalWrite addr v pos { s with ax := a }) := by
  rcases logicalWrite_cases s addr v pos { s with ax := a } with ⟨e, -, he⟩ | ⟨out, hout, ⟨hl, he⟩ | ⟨hl, he⟩⟩
  · rw [he]; exact .raise (.inr (.inl h)) hf e
  · rw [he]; exact .inl ⟨hl, rfl⟩
  · rw [he]
    refine .xchg h (.inr ⟨_, addr, v, hout, nofun, ?_⟩) hp hl
    exact ho.imp_right .inl

/-- A step that is one exchange of a logical read. -/
theorem StepShape.readExchange {i : Instr} {s : State} {addr : Int} {pos : Nat}
    (hs : ∀ speed t run hold, i ≠ .setup speed t run hold)
    (ho : (∃ reg : Reg, addr = reg.addr ∧ reg ≠ .gstat) ∨ i = .readReg addr) (hp : Moves i s pos) :
    StepShape i s (s.readExchange addr pos) := by
  have h : Latches i s s.ax := .inl ⟨hs, rfl⟩
  rcases readExchange_cases s addr pos with ⟨e, -, he⟩ | ⟨out, hout, ⟨hl, he⟩ | ⟨hl, he⟩⟩
  · rw [he]; exact .raise (.inl rfl) rfl e
  · rw [he]; exact .inl ⟨hl, rfl⟩
  · rw [he]
    refine .xchg h (.inr ⟨_, addr, 0, hout, fun _ => rfl, ?_⟩) hp hl
    exact ho.imp_right .inr

/-- A response that sets result fields of a blank record is a legal one. -/
theorem blank_inv (a : Axis) : (Response.blank a).Inv := ⟨rfl, by simp [Response.blank], by simp [Response.blank]⟩

theorem oneStep_next {f : State → State} {s t : State} (h : oneStep f s = .next t) : s.ax.upc = 0 ∧ t = f s := by
  unfold oneStep at h
  split at h
  · cases h; exact ⟨‹_›, rfl⟩
  · cases h

theorem writeSequence_next {ws : List (Int × Int)} {s t : State} (h : writeSequence ws s = .next t) :
    (∃ w, ws[s.ax.upc]? = some w ∧ t = s.logicalWrite w.1 w.2 (s.ax.upc + 1) s) ∨
    (s.ax.upc = ws.length ∧ t = s.respond id) := by
  unfold writeSequence at h
  split at h
  · cases h; exact .inl ⟨_, ‹_›, rfl⟩
  · split at h
    · cases h; exact .inr ⟨‹_›, rfl⟩
    · cases h

theorem readSequence_next {a : Int} {s t : State} (h : readSequence a s = .next t) :
    (s.ax.upc = 0 ∧ t = s.readExchange a 1) ∨ (s.ax.upc = 1 ∧ t = s.readExchange a 2) ∨
    (∃ r, s.ax.upc = 2 ∧ s.ax.rx = some r ∧
      t = s.respond fun q => { q with value := some (decodeFrame r).1 }) := by
  unfold readSequence at h
  split at h
  · cases h; exact .inl ⟨‹_›, rfl⟩
  · cases h; exact .inr (.inl ⟨‹_›, rfl⟩)
  · split at h
    · cases h; exact .inr (.inr ⟨_, ‹_›, ‹_›, rfl⟩)
    · cases h
  · cases h

theorem StepShape.writeSequence {i : Instr} {ws : List (Int × Int)} {s t : State} (h : writeSequence ws s = .next t)
    (hc : i.isCommand = true) (hi : i.lastPosition = ws.length) (hs : ∀ speed t run hold, i ≠ .setup speed t run hold)
    (hm : ∀ target b, i ≠ .moveAbs target b)
    (ho : ∀ w ∈ ws, (∃ reg : Reg, w.1 = reg.addr ∧ reg ≠ .gstat) ∨ ∃ v', i = .writeReg w.1 v') :
    StepShape i s t := by
  rcases writeSequence_next h with ⟨w, hw, rfl⟩ | ⟨-, rfl⟩
  · obtain ⟨hlt, rfl⟩ := List.getElem?_eq_some_iff.1 hw
    exact .logicalWrite (.inl ⟨hs, rfl⟩) rfl (ho _ (List.getElem_mem hlt))
      ⟨hc, by omega, by omega, fun _ _ _ _ h => (hs _ _ _ _ h).elim, fun _ _ h => (hm _ _ h).elim⟩
  · exact .respond (a := s.ax) (.inl rfl) rfl id ⟨rfl, rfl, fun _ => rfl, blank_inv _⟩

theorem StepShape.readSequence {i : Instr} {a : Int} {s t : State} (h : readSequence a s = .next t)
    (hc : i.isCommand = true) (hi : i.lastPosition = 2) (hs : ∀ speed t run hold, i ≠ .setup speed t run hold)
    (hm : ∀ target b, i ≠ .moveAbs target b)
    (ho : (∃ reg : Reg, a = reg.addr ∧ reg ≠ .gstat) ∨ i = .readReg a) : StepShape i s t := by
  rcases readSequence_next h with ⟨h0, rfl⟩ | ⟨h0, rfl⟩ | ⟨r, -, -, rfl⟩
  · exact .readExchange hs ho
      ⟨hc, by omega, by omega, fun _ _ _ _ h => (hs _ _ _ _ h).elim, fun _ _ h => (hm _ _ h).elim⟩
  · exact .readExchange hs ho
      ⟨hc, by omega, by omega, fun _ _ _ _ h => (hs _ _ _ _ h).elim, fun _ _ h => (hm _ _ h).elim⟩
  · exact .respond (a := s.ax) (.inl rfl) rfl _
      ⟨rfl, rfl, fun _ => rfl, rfl, by simp [decodeFrame, s32_mem], by simp [Response.blank]⟩

theorem StepShape.exchangeFrame {i : Instr} {out : Frame} {s t : State} (h : exchangeFrame out s = .next t)
    (hi : i.isCommand = false) : StepShape i s t := by
  unfold Machine.exchangeFrame at h
  cases h
  cases hl : s.lock with
  | none =>
    rw [whenBusFree_free hl]
    cases ha : s.answer with
    | frame r => rw [xchgKeeping_frame ha]; exact .inr (.inr (.inr (.inr (.inr ⟨out, r, hi, hl, ha, rfl⟩))))
    | error e =>
      rw [xchgKeeping_error ha]
      exact .inr (.inr (.inr (.inl ⟨s.ax, out, e, .inl ⟨by rintro _ _ _ _ rfl; simp [Instr.isCommand] at hi, rfl⟩,
        .inl hi, hl, ha, rfl⟩)))
  | some c => rw [whenBusFree_held hl]; exact .inl ⟨by simp [hl], rfl⟩

theorem StepShape.badCommand {i : Instr} {c : BitVec 4} {s t : State} (h : badCommand c s = .next t) :
    StepShape i s t := by
  cases h
  exact .raise (a := s.ax) (.inl rfl) rfl _

/-- A reserved code raises, in every state (R82, R164). -/
theorem exec_reserved {i : Instr} (h : i.isReserved = true) (s : State) : ∃ c, exec i s = .next (s.raise (.badCommand c)) := by
  cases i <;> first | cases h; done | exact ⟨_, rfl⟩

theorem setupLatch_flags (c : SetupResult) (n : Nat) (a : Axis) : (setupLatch c n a).flags = a.flags := by
  unfold setupLatch; split <;> rfl

/-- The registers SETUP writes are named ones, and not GSTAT (R127, R39). -/
theorem setupWrites_named (p : Params) (c : SetupResult) : ∀ w ∈ setupWrites p c, w.1 ≠ .gstat := by
  simp [setupWrites]

theorem StepShape.setup {speed at_ run hold : Rat} {s t : State}
    (h : execSetup speed at_ run hold s = .next t) : StepShape (.setup speed at_ run hold) s t := by
  unfold execSetup at h
  simp only at h
  split at h
  · rename_i w hw
    split at h
    · cases h; exact .raise (a := s.ax) (.inl rfl) rfl _
    · cases h
      obtain ⟨hlt, rfl⟩ := List.getElem?_eq_some_iff.1 hw
      have hlt' : s.ax.upc < 14 := hlt
      exact .logicalWrite (.inr ⟨speed, at_, run, hold, rfl, rfl⟩) (setupLatch_flags ..)
        (.inl ⟨_, rfl, setupWrites_named _ _ _ (List.getElem_mem hlt)⟩)
        ⟨rfl, by omega, by simp only [Instr.lastPosition]; omega, fun _ _ _ _ _ => rfl, nofun⟩
  · split at h
    · rename_i h14
      cases h
      exact .respond (a := { s.ax with configured := true })
        (.inr (.inr (.inl ⟨speed, at_, run, hold, rfl, h14, rfl⟩))) rfl _
        ⟨rfl, rfl, fun _ => rfl, rfl, by simp [Response.blank], by simp [Response.blank]⟩
    · cases h

theorem StepShape.moveCheck {target : Int} {b : Bool} {s : State} (st : Byte) (h6 : s.ax.upc = 6) :
    StepShape (.moveAbs target b) s (moveCheck st s) := by
  unfold Machine.moveCheck
  simp only
  split
  · exact .respond (a := { s.ax with npoll := s.ax.npoll + 1 }) (.inr (.inr (.inr ⟨target, b, rfl, h6, rfl⟩))) rfl _
      ⟨rfl, rfl, fun _ => rfl, rfl, by simp [Response.blank], by simp [Response.blank]⟩
  · exact .inr (.inr (.inr (.inr (.inl ⟨target, b, rfl, h6, rfl⟩))))

theorem StepShape.moveAbs {target : Int} {b : Bool} {s t : State}
    (h : execMoveAbs target b s = .next t) : StepShape (.moveAbs target b) s t := by
  have ho : (∃ reg : Reg, Reg.xactual.addr = reg.addr ∧ reg ≠ .gstat) ∨
      Instr.moveAbs target b = .readReg Reg.xactual.addr := .inl ⟨.xactual, rfl, by decide⟩
  have hp : ∀ pos, s.ax.upc < pos → pos ≤ 6 → (5 ≤ pos → s.ax.npoll ∉ s.par.pollLimit ∨ 5 ≤ s.ax.upc) →
      Moves (.moveAbs target b) s pos := fun pos h1 h2 h3 =>
    ⟨rfl, h1, h2, nofun, fun _ _ _ h5 => h3 h5⟩
  unfold execMoveAbs at h
  split at h
  · cases h
    exact .logicalWrite (a := s.ax) (.inl ⟨nofun, rfl⟩) rfl (.inl ⟨.xtarget, rfl, by decide⟩)
      (hp _ (by omega) (by omega) (by omega))
  · cases h; exact .readExchange nofun ho (hp _ (by omega) (by omega) (by omega))
  · cases h; exact .readExchange nofun ho (hp _ (by split <;> omega) (by split <;> omega) (by split <;> omega))
  · cases h
    exact .respond (a := s.ax) (.inl rfl) rfl _
      ⟨rfl, rfl, fun _ => rfl, rfl, by simp [Response.blank], by simp [Response.blank]⟩
  · cases h
    unfold movePoll
    split
    · exact .respond (a := s.ax) (.inl rfl) rfl _
        ⟨rfl, rfl, fun _ => rfl, rfl, by simp [Response.blank], by simp [Response.blank]⟩
    · rename_i hn
      exact .readExchange nofun ho (hp _ (by omega) (by omega) (fun _ => .inl hn))
  · cases h; exact .readExchange nofun ho (hp _ (by omega) (by omega) (fun _ => .inr (by omega)))
  · split at h
    · cases h; exact .moveCheck _ ‹_›
    · cases h
  · cases h

theorem StepShape.codec {i : Instr} {f : State → State} {s t : State} (h : oneStep f s = .next t)
    (hf : (∃ e, f s = s.raise e) ∨ ∃ fields, f s = s.respond fields ∧
      (fields (Response.blank s.ax)).flagsValid = s.ax.flags.isSome ∧
      (fields (Response.blank s.ax)).flags = s.ax.flags ∧
      ((fields (Response.blank s.ax)).status = .ok → (fields (Response.blank s.ax)).info = none) ∧
      (fields (Response.blank s.ax)).Inv) : StepShape i s t := by
  obtain ⟨-, rfl⟩ := oneStep_next h
  rcases hf with ⟨e, he⟩ | ⟨fields, he, hr⟩
  · rw [he]; exact .raise (a := s.ax) (.inl rfl) rfl e
  · rw [he]; exact .respond (a := s.ax) (.inl rfl) rfl fields hr

/-- Everything a controller step can do. -/
theorem exec_cases {i : Instr} {s t : State} (h : exec i s = .next t) : StepShape i s t := by
  cases i with
  | encodeFrame d a v =>
    rw [exec, execEncodeFrame] at h
    refine .codec h ?_
    cases hc : encodeFrame d a v with
    | error e => exact .inl ⟨e, by simp⟩
    | ok f =>
      exact .inr ⟨fun q => { q with frame := some f }, by simp, rfl, rfl, fun _ => rfl,
        ⟨rfl, by simp [Response.blank], by simp [Response.blank]⟩⟩
  | decodeFrame f =>
    exact .codec h (.inr ⟨_, rfl, rfl, rfl, fun _ => rfl,
      ⟨rfl, by simp [decodeFrame, s32_mem], by simp [Response.blank]⟩⟩)
  | getFlags =>
    rw [exec, execGetFlags] at h
    refine .codec h ?_
    cases hf : s.ax.flags with
    | none => exact .inl ⟨.flagsUnset, rfl⟩
    | some b => exact .inr ⟨id, rfl, by simp [hf], by simp [hf], fun _ => rfl, blank_inv _⟩
  | setup speed at_ run hold => exact .setup h
  | moveAbs target b => exact .moveAbs h
  | writeReg a v => exact .writeSequence h rfl rfl nofun nofun (by simp)
  | setPos x =>
    exact .writeSequence h rfl rfl nofun nofun (by
      simp only [List.mem_cons, List.not_mem_nil, or_false, forall_eq_or_imp, forall_eq]
      exact ⟨.inl ⟨.xactual, rfl, by decide⟩, .inl ⟨.xtarget, rfl, by decide⟩⟩)
  | setEnc x =>
    exact .writeSequence h rfl rfl nofun nofun (by
      simp only [List.mem_cons, List.not_mem_nil, or_false, forall_eq]
      exact .inl ⟨.xEnc, rfl, by decide⟩)
  | readReg a => exact .readSequence h rfl rfl nofun nofun (.inr rfl)
  | getPos => exact .readSequence h rfl rfl nofun nofun (.inl ⟨.xactual, rfl, by decide⟩)
  | readEnc => exact .readSequence h rfl rfl nofun nofun (.inl ⟨.xEnc, rfl, by decide⟩)
  | reserved0 => exact .badCommand h
  | reservedC => exact .badCommand h
  | reservedD => exact .badCommand h
  | reservedE => exact .badCommand h
  | reservedF => exact .badCommand h
  | frameRead a d => exact .exchangeFrame h rfl
  | frameWrite a d => exact .exchangeFrame h rfl
  | wrGconf d => exact .exchangeFrame h rfl
  | wrChopconf d => exact .exchangeFrame h rfl
  | wrIholdIrun d => exact .exchangeFrame h rfl
  | wrTpowerdown d => exact .exchangeFrame h rfl
  | wrPwmconf d => exact .exchangeFrame h rfl
  | wrA1 d => exact .exchangeFrame h rfl
  | wrV1 d => exact .exchangeFrame h rfl
  | wrAmax d => exact .exchangeFrame h rfl
  | wrVmax d => exact .exchangeFrame h rfl
  | wrD1 d => exact .exchangeFrame h rfl
  | wrVstop d => exact .exchangeFrame h rfl
  | wrRampmode d => exact .exchangeFrame h rfl
  | wrXactual d => exact .exchangeFrame h rfl
  | wrXtarget d => exact .exchangeFrame h rfl
  | rdXactual d => exact .exchangeFrame h rfl
  | rdXEnc d => exact .exchangeFrame h rfl
  | wrXEnc d => exact .exchangeFrame h rfl

end Sys2Proof.Machine
end

