-- ==== Sys2Proof/Laws/PerInstr.lean ====
section
/-!
SUPPORT. Per instruction: the encoder's word is one of the instruction's row of spec/opcode_table.json (its match under its mask),
the row's number of bits long. One lemma per constructor.
-/

namespace Sys2Proof.Laws.TableRow

/-- The instruction's row of the opcode table: the bits of a word of it, its mask and its match. -/
def row : Instr → Nat × Nat × Nat
  | .encodeFrame _ _ _ => (4, 0xF, 0x1)
  | .decodeFrame _ => (4, 0xF, 0x2)
  | .writeReg _ _ => (4, 0xF, 0x3)
  | .readReg _ => (4, 0xF, 0x4)
  | .getFlags => (4, 0xF, 0x5)
  | .setup _ _ _ _ => (4, 0xF, 0x6)
  | .moveAbs _ _ => (4, 0xF, 0x7)
  | .getPos => (4, 0xF, 0x8)
  | .setPos _ => (4, 0xF, 0x9)
  | .readEnc => (4, 0xF, 0xA)
  | .setEnc _ => (4, 0xF, 0xB)
  | .reserved0 => (4, 0xF, 0x0)
  | .reservedC => (4, 0xF, 0xC)
  | .reservedD => (4, 0xF, 0xD)
  | .reservedE => (4, 0xF, 0xE)
  | .reservedF => (4, 0xF, 0xF)
  | .frameRead _ _ => (40, 0x8000000000, 0x0000000000)
  | .frameWrite _ _ => (40, 0x8000000000, 0x8000000000)
  | .wrGconf _ => (40, 0xFF00000000, 0x8000000000)
  | .wrChopconf _ => (40, 0xFF00000000, 0xEC00000000)
  | .wrIholdIrun _ => (40, 0xFF00000000, 0x9000000000)
  | .wrTpowerdown _ => (40, 0xFF00000000, 0x9100000000)
  | .wrPwmconf _ => (40, 0xFF00000000, 0xF000000000)
  | .wrA1 _ => (40, 0xFF00000000, 0xA400000000)
  | .wrV1 _ => (40, 0xFF00000000, 0xA500000000)
  | .wrAmax _ => (40, 0xFF00000000, 0xA600000000)
  | .wrVmax _ => (40, 0xFF00000000, 0xA700000000)
  | .wrD1 _ => (40, 0xFF00000000, 0xAA00000000)
  | .wrVstop _ => (40, 0xFF00000000, 0xAB00000000)
  | .wrRampmode _ => (40, 0xFF00000000, 0xA000000000)
  | .wrXactual _ => (40, 0xFF00000000, 0xA100000000)
  | .wrXtarget _ => (40, 0xFF00000000, 0xAD00000000)
  | .rdXactual _ => (40, 0xFF00000000, 0x2100000000)
  | .rdXEnc _ => (40, 0xFF00000000, 0x3900000000)
  | .wrXEnc _ => (40, 0xFF00000000, 0xB900000000)

/-- The bits of an encoded instruction, numbered as the opcode table numbers them. -/
def bits : Encoded → Nat × Nat
  | .command w => (4, w.cmd.toNat)
  | .frame f => (40, f.word.toNat)

/-- The encoded instruction is a word of its row. -/
def Statement (i : Instr) : Prop :=
  (bits (encode i)).1 = (row i).1 ∧ (bits (encode i)).2 &&& (row i).2.1 = (row i).2.2

/-- Byte 0 of a frame is the most significant byte of its frame word (R11). -/
theorem word_and (b : Byte) (d : Word32) (m : Nat) :
    (Frame.ofParts b d).word.toNat &&& (m <<< 32) = (b.toNat &&& m) <<< 32 := by
  have hw : (Frame.ofParts b d).word.toNat = b.toNat <<< 32 + d.toNat := by
    simp only [Frame.word, BitVec.toNat_append, data_ofParts, b0_ofParts]
    rw [Nat.shiftLeft_add_eq_or_of_lt d.isLt]
  rw [hw]
  apply Nat.eq_of_testBit_eq
  intro i
  have hd := d.isLt
  rw [Nat.shiftLeft_add_eq_or_of_lt hd]
  simp only [Nat.testBit_and, Nat.testBit_or, Nat.testBit_shiftLeft]
  by_cases hi : 32 ≤ i
  · simp [hi, Nat.testBit_lt_two_pow (Nat.lt_of_lt_of_le hd (Nat.pow_le_pow_right (by omega) hi))]
  · simp [hi]

/-- A frame of a direction and address is a word of a row that names byte 0's bits under a mask. -/
theorem frame_row (d : Dir) (a : RegAddr) (w : Word32) (m : Nat) :
    (bits (wireFrame d a w)).1 = 40 ∧
    (bits (wireFrame d a w)).2 &&& (m <<< 32) = ((commandByte d a).toNat &&& m) <<< 32 :=
  ⟨rfl, word_and _ _ m⟩

theorem encodeFrame (d : Dir) (a v : Int) : Statement (.encodeFrame d a v) :=
  ⟨rfl, by simp [bits, encode, commandWord, row]⟩
theorem decodeFrame (f : Frame) : Statement (.decodeFrame f) :=
  ⟨rfl, by simp [bits, encode, commandWord, row]⟩
theorem writeReg (a v : Int) : Statement (.writeReg a v) :=
  ⟨rfl, by simp [bits, encode, commandWord, row]⟩
theorem readReg (a : Int) : Statement (.readReg a) :=
  ⟨rfl, by simp [bits, encode, commandWord, row]⟩
theorem getFlags : Statement (.getFlags) :=
  ⟨rfl, by simp [bits, encode, commandWord, row]⟩
theorem setup (s t r h : Rat) : Statement (.setup s t r h) :=
  ⟨rfl, by simp [bits, encode, commandWord, row]⟩
theorem moveAbs (t : Int) (b : Bool) : Statement (.moveAbs t b) :=
  ⟨rfl, by simp [bits, encode, commandWord, row]⟩
theorem getPos : Statement (.getPos) :=
  ⟨rfl, by simp [bits, encode, commandWord, row]⟩
theorem setPos (x : Rat) : Statement (.setPos x) :=
  ⟨rfl, by simp [bits, encode, commandWord, row]⟩
theorem readEnc : Statement (.readEnc) :=
  ⟨rfl, by simp [bits, encode, commandWord, row]⟩
theorem setEnc (x : Rat) : Statement (.setEnc x) :=
  ⟨rfl, by simp [bits, encode, commandWord, row]⟩
theorem reserved0 : Statement (.reserved0) :=
  ⟨rfl, by simp [bits, encode, commandWord, row]⟩
theorem reservedC : Statement (.reservedC) :=
  ⟨rfl, by simp [bits, encode, commandWord, row]⟩
theorem reservedD : Statement (.reservedD) :=
  ⟨rfl, by simp [bits, encode, commandWord, row]⟩
theorem reservedE : Statement (.reservedE) :=
  ⟨rfl, by simp [bits, encode, commandWord, row]⟩
theorem reservedF : Statement (.reservedF) :=
  ⟨rfl, by simp [bits, encode, commandWord, row]⟩
theorem frameRead (a : RegAddr) (d : Word32) : Statement (.frameRead a d) := by
  refine ⟨rfl, (frame_row .read a d 0x80).2.trans ?_⟩
  simp only [row]; clear d; revert a; decide
theorem frameWrite (a : RegAddr) (d : Word32) : Statement (.frameWrite a d) := by
  refine ⟨rfl, (frame_row .write a d 0x80).2.trans ?_⟩
  simp only [row]; clear d; revert a; decide
theorem wrGconf (d : Word32) : Statement (.wrGconf d) := frame_row .write 0x00 d 0xFF
theorem wrChopconf (d : Word32) : Statement (.wrChopconf d) := frame_row .write 0x6C d 0xFF
theorem wrIholdIrun (d : Word32) : Statement (.wrIholdIrun d) := frame_row .write 0x10 d 0xFF
theorem wrTpowerdown (d : Word32) : Statement (.wrTpowerdown d) := frame_row .write 0x11 d 0xFF
theorem wrPwmconf (d : Word32) : Statement (.wrPwmconf d) := frame_row .write 0x70 d 0xFF
theorem wrA1 (d : Word32) : Statement (.wrA1 d) := frame_row .write 0x24 d 0xFF
theorem wrV1 (d : Word32) : Statement (.wrV1 d) := frame_row .write 0x25 d 0xFF
theorem wrAmax (d : Word32) : Statement (.wrAmax d) := frame_row .write 0x26 d 0xFF
theorem wrVmax (d : Word32) : Statement (.wrVmax d) := frame_row .write 0x27 d 0xFF
theorem wrD1 (d : Word32) : Statement (.wrD1 d) := frame_row .write 0x2A d 0xFF
theorem wrVstop (d : Word32) : Statement (.wrVstop d) := frame_row .write 0x2B d 0xFF
theorem wrRampmode (d : Word32) : Statement (.wrRampmode d) := frame_row .write 0x20 d 0xFF
theorem wrXactual (d : Word32) : Statement (.wrXactual d) := frame_row .write 0x21 d 0xFF
theorem wrXtarget (d : Word32) : Statement (.wrXtarget d) := frame_row .write 0x2D d 0xFF
theorem rdXactual (d : Word32) : Statement (.rdXactual d) := frame_row .read 0x21 d 0xFF
theorem rdXEnc (d : Word32) : Statement (.rdXEnc d) := frame_row .read 0x39 d 0xFF
theorem wrXEnc (d : Word32) : Statement (.wrXEnc d) := frame_row .write 0x39 d 0xFF

end Sys2Proof.Laws.TableRow
end

