-- ==== Sys2Proof/Laws/Step.lean ====
section
/-!
SUPPORT. What the two exchanges of the block's sequences do where the bus is free and the transport answers, and how steps of one
axis follow each other.
-/

namespace Sys2Proof.Machine

/-- A logical write whose operands are accepted, on a free bus, answered by a frame (R109). -/
theorem logicalWrite_frame {s latched : State} {a v : Int} {r : Frame} (ha : inRegSpace a = true)
    (hv : inS32 v = true) (hl : s.lock = none) (hr : latched.answer = .frame r) (pos : Nat) :
    s.logicalWrite a v pos latched =
      latched.afterFrame (Frame.ofParts (commandByte .write (BitVec.ofInt 7 a)) (u32 v)) r pos := by
  unfold State.logicalWrite
  rw [encodeFrame_of_inRange _ ha hv]
  simp only [whenBusFree_free hl, xchg_frame hr]

/-- A logical write whose operands are accepted, on a free bus, answered by a transport error (R109, R157). -/
theorem logicalWrite_transportError {s latched : State} {a v : Int} {e : TransportError} (ha : inRegSpace a = true)
    (hv : inS32 v = true) (hl : s.lock = none) (hr : latched.answer = .error e) (pos : Nat) :
    s.logicalWrite a v pos latched =
      latched.afterTransportError (Frame.ofParts (commandByte .write (BitVec.ofInt 7 a)) (u32 v)) e := by
  unfold State.logicalWrite
  rw [encodeFrame_of_inRange _ ha hv]
  simp only [whenBusFree_free hl, xchg_error hr]

/-- An exchange of a logical read at an accepted address, on a free bus, answered by a frame (R110). -/
theorem readExchange_frame {s : State} {a : Int} {r : Frame} (ha : inRegSpace a = true) (hl : s.lock = none)
    (hr : s.answer = .frame r) (pos : Nat) :
    s.readExchange a pos = s.afterFrame (Frame.ofParts (commandByte .read (BitVec.ofInt 7 a)) 0) r pos := by
  unfold State.readExchange
  rw [encodeFrame_of_inRange _ ha (by decide)]
  simp only [whenBusFree_free hl, xchg_frame hr]
  rfl

/-- A busy axis goes on with its command (R31). -/
theorem axisStep_busy {s : State} {i : Instr} (hb : s.ax.busy = true) (hc : s.ax.cur = some i) :
    axisStep s = exec i s := by
  simp [axisStep, State.fetch, hb, hc]

/-- Steps of one axis after steps of it. -/
theorem axisSteps_add {m : Nat} {s u : State} (h : axisSteps m s = .next u) (n : Nat) :
    axisSteps (m + n) s = axisSteps n u := by
  induction m generalizing s with
  | zero => cases h; simp
  | succ m ih =>
    rw [Nat.succ_add]
    simp only [axisSteps] at h ⊢
    cases hx : axisStep s with
    | next t => rw [hx] at h; exact ih h
    | fault f => rw [hx] at h; cases h
    | refused f => rw [hx] at h; cases h

/-- The frames of events after events. -/
theorem sentFrames_append (es fs : List BusEvent) : sentFrames (es ++ fs) = sentFrames es ++ sentFrames fs :=
  List.filterMap_append ..

/-- The one frame of an exchange. -/
@[simp] theorem sentFrames_exchangeEvents (chip : Nat) (out : Frame) (a : Answer) :
    sentFrames (exchangeEvents chip out a) = [out] := rfl

end Sys2Proof.Machine
end

