-- ==== Sys2Proof/Machine/Assembler.lean ====
section
/-!
DEFINITION. The assembler syntax of host commands (spec/30_encoding.md R84): one command per line, its operands separated by
commas, comments from `;`. Lines are lists of characters; every function is structural, so that the kernel can run it.
-/

namespace Sys2Proof.Machine.Asm

/-- The characters without leading blanks. R84 does not say which characters may surround operands: the space alone is a
blank, a tab is none (log 24). -/
def skipBlanks : List Char → List Char
  | ' ' :: cs => skipBlanks cs
  | cs => cs

/-- The characters without leading and trailing blanks. -/
def trim (cs : List Char) : List Char := (skipBlanks (skipBlanks cs).reverse).reverse

/-- The characters before the comment, if there is one (R84: "Comments start with `;`"). -/
def dropComment : List Char → List Char
  | [] => []
  | c :: cs => if c = ';' then [] else c :: dropComment cs

/-- The parts between separators. -/
def splitAt (sep : Char) : List Char → List (List Char)
  | [] => [[]]
  | c :: cs =>
    if c = sep then [] :: splitAt sep cs
    else
      match splitAt sep cs with
      | [] => [[c]]
      | p :: ps => (c :: p) :: ps

/-- The value of a decimal digit. -/
def decDigit (c : Char) : Option Nat := if 48 ≤ c.toNat ∧ c.toNat ≤ 57 then some (c.toNat - 48) else none

/-- The value of a hexadecimal digit. -/
def hexDigit (c : Char) : Option Nat :=
  if 48 ≤ c.toNat ∧ c.toNat ≤ 57 then some (c.toNat - 48)
  else if 65 ≤ c.toNat ∧ c.toNat ≤ 70 then some (c.toNat - 55)
  else if 97 ≤ c.toNat ∧ c.toNat ≤ 102 then some (c.toNat - 87)
  else none

/-- A number continued by digits of a base. -/
def digitsFrom (base : Nat) (digit : Char → Option Nat) : Nat → List Char → Option Nat
  | n, [] => some n
  | n, c :: cs =>
    match digit c with
    | some d => digitsFrom base digit (n * base + d) cs
    | none => none

/-- A number of at least one digit. -/
def digits (base : Nat) (digit : Char → Option Nat) (cs : List Char) : Option Nat :=
  if cs = [] then none else digitsFrom base digit 0 cs

/-- A natural number, "decimal or `0x` hexadecimal" (R84). -/
def natural : List Char → Option Nat
  | '0' :: 'x' :: cs => digits 16 hexDigit cs
  | cs => digits 10 decDigit cs

/-- A number with "an optional leading `-`" (R84). -/
def signed {α : Type} [Neg α] (number : List Char → Option α) : List Char → Option α
  | '-' :: cs => (number cs).map fun n => -n
  | cs => number cs

/-- An integer operand (R84). -/
def integer : List Char → Option Int := signed fun cs => (natural cs).map fun n => (n : Int)

/-- A rational operand without its sign: an integer, a decimal (`0.25`) or `p/q` (R84); `q = 0` names no number. -/
def positiveRational (cs : List Char) : Option Rat :=
  match splitAt '/' cs with
  | [p, q] =>
    match natural p, natural q with
    | some p, some (q + 1) => some ((p : Rat) / ((q + 1 : Nat) : Rat))
    | _, _ => none
  | _ =>
    match splitAt '.' cs with
    | [i, f] =>
      match digits 10 decDigit i, digits 10 decDigit f with
      | some i, some n => some ((i : Rat) + (n : Rat) / ((10 ^ f.length : Nat) : Rat))
      | _, _ => none
    | _ => (natural cs).map fun n => (n : Rat)

/-- A rational operand (R84). -/
def rational : List Char → Option Rat := signed positiveRational

/-- The spec's name of a chip register (R35). -/
def regName : Reg → String
  | .gconf => "GCONF"
  | .gstat => "GSTAT"
  | .iholdIrun => "IHOLD_IRUN"
  | .tpowerdown => "TPOWERDOWN"
  | .rampmode => "RAMPMODE"
  | .xactual => "XACTUAL"
  | .a1 => "A1"
  | .v1 => "V1"
  | .amax => "AMAX"
  | .vmax => "VMAX"
  | .d1 => "D1"
  | .vstop => "VSTOP"
  | .xtarget => "XTARGET"
  | .xEnc => "X_ENC"
  | .chopconf => "CHOPCONF"
  | .pwmconf => "PWMCONF"

/-- The registers of R35. -/
def allRegs : List Reg :=
  [.gconf, .gstat, .iholdIrun, .tpowerdown, .rampmode, .xactual, .a1, .v1, .amax, .vmax, .d1, .vstop, .xtarget, .xEnc,
    .chopconf, .pwmconf]

/-- An address operand: "Register names of 10_state.md rule R35 may stand for addresses" (R84). -/
def address (cs : List Char) : Option Int :=
  match allRegs.find? fun r => decide ((regName r).toList = cs) with
  | some r => some r.addr
  | none => integer cs

/-- A `dir` operand, "written `W` or `R`" (R84). -/
def direction : List Char → Option Dir
  | ['W'] => some .write
  | ['R'] => some .read
  | _ => none

/-- A `blocking` operand, "written `BLOCK` ... or `NOBLOCK`" (R84). -/
def blocking (cs : List Char) : Option Bool :=
  if cs = "BLOCK".toList then some true else if cs = "NOBLOCK".toList then some false else none

/-- A byte literal. -/
def byteLiteral (cs : List Char) : Option Byte :=
  match natural cs with
  | some n => if n < 256 then some (BitVec.ofNat 8 n) else none
  | none => none

/-- A frame operand: "five byte literals separated by spaces" (R84). -/
def frameOperand (cs : List Char) : Option Frame :=
  match (splitAt ' ' cs).filter fun p => decide (p ≠ []) with
  | [a, b, c, d, e] =>
    match byteLiteral a, byteLiteral b, byteLiteral c, byteLiteral d, byteLiteral e with
    | some a, some b, some c, some d, some e => some ⟨a, b, c, d, e⟩
    | _, _, _, _, _ => none
  | _ => none

/-- The command a mnemonic and its operands stand for: the forms and the two pseudo-instructions of R84. -/
def command (mnemonic : String) (ops : List (List Char)) : Option Instr :=
  match mnemonic, ops with
  | "ENCODE_FRAME", [d, a, v] =>
    match direction d, address a, integer v with
    | some d, some a, some v => some (.encodeFrame d a v)
    | _, _, _ => none
  | "DECODE_FRAME", [f] => (frameOperand f).map .decodeFrame
  | "WRITE_REG", [a, v] =>
    match address a, integer v with
    | some a, some v => some (.writeReg a v)
    | _, _ => none
  | "READ_REG", [a] => (address a).map .readReg
  | "GET_FLAGS", [] => some .getFlags
  | "SETUP", [s, t, r, h] =>
    match rational s, rational t, rational r, rational h with
    | some s, some t, some r, some h => some (.setup s t r h)
    | _, _, _, _ => none
  | "MOVE_ABS", [t] => (integer t).map fun t => .moveAbs t true
  | "MOVE_ABS", [t, b] =>
    match integer t, blocking b with
    | some t, some b => some (.moveAbs t b)
    | _, _ => none
  | "MOVE_NB", [t] => (integer t).map fun t => .moveAbs t false
  | "GET_POS", [] => some .getPos
  | "SET_POS", [x] => (rational x).map .setPos
  | "ZERO_POS", [] => some (.setPos 0)
  | "READ_ENC", [] => some .readEnc
  | "SET_ENC", [x] => (rational x).map .setEnc
  | _, _ => none

/-- The first word of a line and the rest; a space separates them (log 24). -/
def firstWord : List Char → List Char × List Char
  | [] => ([], [])
  | c :: cs => if c = ' ' then ([], cs) else ((c :: (firstWord cs).1), (firstWord cs).2)

/-- One line: no command where it holds only blanks and a comment; an error where it is no command of R84. -/
def line (text : String) : Except Unit (Option Instr) :=
  match trim (dropComment text.toList) with
  | [] => .ok none
  | cs =>
    let operands := trim (firstWord cs).2
    match command (String.ofList (firstWord cs).1)
        (if operands = [] then [] else (splitAt ',' operands).map trim) with
    | some i => .ok (some i)
    | none => .error ()

end Sys2Proof.Machine.Asm
end

