-- ==== Sys2Proof/Tests/Slice0.lean ====
section
/-!
SUPPORT. The model's own tests: expected values are those of spec/95_test_vectors.md (its vector is named), or hand-made from the
encoding tables of spec/30_encoding.md; and for every obligation with hypotheses a witness that meets them.
-/

namespace Sys2Proof.Tests

open Sys2Proof.Machine

set_option Elab.async false

/-! ## States and readings -/

/-- Arguments with a concrete `P_CHOPCONF`. -/
def par0 : Params := { chopconf := 0x12345678, pollLimit := none, round := .halfUp, numerics := .exact }

/-- Two idle axes after reset, with chip selects 0 and 1. -/
def idle : State := State.resetWith par0 { chip := fun i => i, injective := fun _ _ h => h } 1

/-- The first axis runs `i`, at a position, with `flags = 0x08` and a held response frame; the transport's answers are given. -/
def running (i : Instr) (pos : Nat) (answers : List Answer) : State :=
  { idle with answers := answers,
              ax := { idle.ax with busy := true, cur := some i, upc := pos, flags := some 0x08,
                                   rx := some ⟨0x08, 0, 0, 0, 0x64⟩ } }

def nextOf : Result → Option State
  | .next s => some s
  | _ => none

def respOf (r : Result) : Option Response := (nextOf r).bind fun t => t.ax.resp

def sentBy (r : Result) : Option (List Frame) := (nextOf r).map fun t => sentFrames t.bus

def flagsAfter (r : Result) : Option Byte := (nextOf r).bind fun t => t.ax.flags

/-- A response frame with the given status byte and data 0. -/
def st (b : Byte) : Answer := .frame ⟨b, 0, 0, 0, 0⟩

def err : TransportError := ⟨7⟩

/-! ## Well-formedness: what it refuses -/

theorem smoke_frameRead_xactual : (Instr.frameRead 0x21 0).wellFormed = false := by decide
theorem smoke_frameRead_xEnc : (Instr.frameRead 0x39 5).wellFormed = false := by decide
theorem smoke_frameRead_other : (Instr.frameRead 0x00 0).wellFormed = true := by decide
theorem smoke_frameWrite_named :
    ∀ a ∈ ([0x00, 0x6C, 0x10, 0x11, 0x70, 0x24, 0x25, 0x26, 0x27, 0x2A, 0x2B, 0x20, 0x21, 0x2D, 0x39] : List RegAddr),
      (Instr.frameWrite a 0).wellFormed = false := by decide
theorem smoke_frameWrite_gstat : (Instr.frameWrite 0x01 0).wellFormed = true := by decide

/-! ## Decoding: every constructor from a word written out from R70, R76, R80 and R81 -/

theorem decode_codec_commands :
    decode (.command ⟨0x1, [.dir .write, .int 0x2D, .int 102400]⟩) = .ok (.encodeFrame .write 0x2D 102400) ∧
    decode (.command ⟨0x2, [.frame ⟨0x08, 0, 0, 0, 0x64⟩]⟩) = .ok (.decodeFrame ⟨0x08, 0, 0, 0, 0x64⟩) ∧
    decode (.command ⟨0x5, []⟩) = .ok .getFlags := by decide +kernel

theorem decode_raw_commands :
    decode (.command ⟨0x3, [.int 0x2D, .int 500]⟩) = .ok (.writeReg 0x2D 500) ∧
    decode (.command ⟨0x4, [.int 0x21]⟩) = .ok (.readReg 0x21) := by decide +kernel

theorem decode_setup :
    decode (.command ⟨0x6, [.rat 102400, .rat (1 / 4), .rat 250, .rat 125]⟩) =
      .ok (.setup 102400 (1 / 4) 250 125) := by decide +kernel

theorem decode_motion_commands :
    decode (.command ⟨0x7, [.int (-5000), .bool false]⟩) = .ok (.moveAbs (-5000) false) ∧
    decode (.command ⟨0x7, [.int 100]⟩) = .ok (.moveAbs 100 true) ∧
    decode (.command ⟨0x8, []⟩) = .ok .getPos ∧
    decode (.command ⟨0x9, [.rat 500]⟩) = .ok (.setPos 500) ∧
    decode (.command ⟨0xA, []⟩) = .ok .readEnc ∧
    decode (.command ⟨0xB, [.rat (5 / 2)]⟩) = .ok (.setEnc (5 / 2)) := by decide +kernel

theorem decode_reserved_codes :
    decode (.command ⟨0x0, []⟩) = .ok .reserved0 ∧ decode (.command ⟨0xC, []⟩) = .ok .reservedC ∧
    decode (.command ⟨0xD, []⟩) = .ok .reservedD ∧ decode (.command ⟨0xE, []⟩) = .ok .reservedE ∧
    decode (.command ⟨0xF, [.int 3]⟩) = .ok .reservedF := by decide +kernel

theorem decode_generic_frames :
    decodeBytes [0x01, 0, 0, 0, 5] = .ok (.frameRead 0x01 5) ∧
    decodeBytes [0x7F, 0x12, 0x34, 0x56, 0x78] = .ok (.frameRead 0x7F 0x12345678) ∧
    decodeBytes [0x81, 0, 0, 0, 0] = .ok (.frameWrite 0x01 0) ∧
    decodeBytes [0xD5, 0, 0, 0, 7] = .ok (.frameWrite 0x55 7) := by decide +kernel

theorem decode_named_frames :
    decodeBytes [0x80, 0x12, 0x34, 0x56, 0x78] = .ok (.wrGconf 0x12345678) ∧
    decodeBytes [0xEC, 0x12, 0x34, 0x56, 0x78] = .ok (.wrChopconf 0x12345678) ∧
    decodeBytes [0x90, 0x12, 0x34, 0x56, 0x78] = .ok (.wrIholdIrun 0x12345678) ∧
    decodeBytes [0x91, 0x12, 0x34, 0x56, 0x78] = .ok (.wrTpowerdown 0x12345678) ∧
    decodeBytes [0xF0, 0x12, 0x34, 0x56, 0x78] = .ok (.wrPwmconf 0x12345678) ∧
    decodeBytes [0xA4, 0x12, 0x34, 0x56, 0x78] = .ok (.wrA1 0x12345678) ∧
    decodeBytes [0xA5, 0x12, 0x34, 0x56, 0x78] = .ok (.wrV1 0x12345678) ∧
    decodeBytes [0xA6, 0x12, 0x34, 0x56, 0x78] = .ok (.wrAmax 0x12345678) ∧
    decodeBytes [0xA7, 0x12, 0x34, 0x56, 0x78] = .ok (.wrVmax 0x12345678) ∧
    decodeBytes [0xAA, 0x12, 0x34, 0x56, 0x78] = .ok (.wrD1 0x12345678) ∧
    decodeBytes [0xAB, 0x12, 0x34, 0x56, 0x78] = .ok (.wrVstop 0x12345678) ∧
    decodeBytes [0xA0, 0x12, 0x34, 0x56, 0x78] = .ok (.wrRampmode 0x12345678) ∧
    decodeBytes [0xA1, 0x12, 0x34, 0x56, 0x78] = .ok (.wrXactual 0x12345678) ∧
    decodeBytes [0xAD, 0x12, 0x34, 0x56, 0x78] = .ok (.wrXtarget 0x12345678) ∧
    decodeBytes [0x21, 0x12, 0x34, 0x56, 0x78] = .ok (.rdXactual 0x12345678) ∧
    decodeBytes [0x39, 0x12, 0x34, 0x56, 0x78] = .ok (.rdXEnc 0x12345678) ∧
    decodeBytes [0xB9, 0x12, 0x34, 0x56, 0x78] = .ok (.wrXEnc 0x12345678) := by decide +kernel

theorem decode_rejects :
    decode (.command ⟨0x3, [.int 1]⟩) = .error (.operands 0x3) ∧ decode (.command ⟨0x5, [.int 1]⟩) = .error (.operands 0x5) ∧
    decodeBytes [0x21, 0, 0, 0] = .error (.frameLength 4) ∧ decodeBytes [] = .error (.frameLength 0) ∧
    decodeBytes [0x21, 0, 0, 0, 0, 0] = .error (.frameLength 6) := by decide +kernel

theorem decode_table_words :
    decodeTableWord 40 0xAD00019000 = some (.wrXtarget 0x00019000) ∧ decodeTableWord 40 0 = some (.frameRead 0 0) ∧
    decodeTableWord 40 0x8100000007 = some (.frameWrite 0x01 7) ∧ decodeTableWord 4 0x5 = some .getFlags ∧
    decodeTableWord 8 0xC = some .reservedC ∧ decodeTableWord 8 0x3 = some (.writeReg 0 0) ∧
    decodeTableWord 24 0 = none := by decide +kernel

/-! ## The assembler (R84) -/

theorem asm_setup : Asm.line "SETUP 102400, 0.25, 250, 125     ; cmd 0x6" = .ok (some (.setup 102400 (1 / 4) 250 125)) := by
  decide +kernel
theorem asm_pseudo :
    Asm.line "MOVE_NB 2000" = .ok (some (.moveAbs 2000 false)) ∧ Asm.line "ZERO_POS" = .ok (some (.setPos 0)) ∧
    Asm.line "MOVE_ABS -5000, BLOCK" = .ok (some (.moveAbs (-5000) true)) := by decide +kernel
theorem asm_operands :
    Asm.line "ENCODE_FRAME W, 0x80, 0x80000000" = .ok (some (.encodeFrame .write 128 2147483648)) ∧
    Asm.line "DECODE_FRAME 0xAD 0x00 0x01 0x90 0x00" = .ok (some (.decodeFrame ⟨0xAD, 0, 1, 0x90, 0⟩)) ∧
    Asm.line "READ_REG X_ENC" = .ok (some (.readReg 0x39)) ∧ Asm.line "SET_ENC -5/2" = .ok (some (.setEnc (-5 / 2))) ∧
    Asm.line "; nothing" = .ok none ∧ Asm.line "READ_REG 1, 2" = .error () := by decide +kernel

/-! ## One step of each instruction -/

/-- C-2. -/
theorem test_encodeFrame : (respOf (exec (.encodeFrame .write 0x2D (-102400)) (running .getFlags 0 []))).bind (·.frame) =
    some ⟨0xAD, 0xFF, 0xFE, 0x70, 0x00⟩ := by decide +kernel
/-- C-11: the address first. -/
theorem test_encodeFrame_error :
    (respOf (exec (.encodeFrame .write 0x80 2147483648) (running .getFlags 0 []))).bind (·.info) =
      some (.encoding .address 128) := by decide +kernel
/-- C-13. -/
theorem test_decodeFrame : (respOf (exec (.decodeFrame ⟨0, 0x80, 0, 0, 0⟩) (running .getFlags 0 []))).map
    (fun r => (r.value, r.dflags, r.flags)) = some (some (-2147483648), some 0x00, some 0x08) := by decide +kernel
/-- T-1. -/
theorem test_writeReg :
    (sentBy (exec (.writeReg 0x2D 500) (running .getFlags 0 [.frame ⟨0x01, 0x12, 0x34, 0x56, 0x78⟩])),
      flagsAfter (exec (.writeReg 0x2D 500) (running .getFlags 0 [.frame ⟨0x01, 0x12, 0x34, 0x56, 0x78⟩]))) =
      (some [⟨0xAD, 0x00, 0x00, 0x01, 0xF4⟩], some 0x01) := by decide +kernel
/-- T-11. -/
theorem test_writeReg_error : (respOf (exec (.writeReg 0x21 2147483648) (running .getFlags 0 []))).map
    (fun r => (r.status, r.info, r.flags)) = some (.eEncoding, some (.encoding .value 2147483648), some 0x08) := by
  decide +kernel
/-- T-6: the second exchange fails. -/
theorem test_readReg_error : (respOf (exec (.readReg 0x21) (running .getFlags 1 [.error err]))).map
    (fun r => (r.status, r.info, r.flags)) = some (.eTransport, some (.transport err), some 0x08) := by decide +kernel
/-- T-3: the value of the second response. -/
theorem test_readReg_value :
    (nextOf (exec (.readReg 0x21) (running .getFlags 1 [.frame ⟨0x20, 0xFF, 0xFF, 0xFF, 0xFF⟩]))).bind
      (fun t => (respOf (exec (.readReg 0x21) t)).map fun r => (r.value, r.flags)) = some (some (-1), some 0x20) := by
  decide +kernel
/-- T-7. -/
theorem test_getFlags_unset : (respOf (exec .getFlags { idle with ax := { idle.ax with cur := some .getFlags } })).map
    (fun r => (r.status, r.flagsValid)) = some (.eFlagsUnset, false) := by decide +kernel
/-- T-8. -/
theorem test_getFlags : (respOf (exec .getFlags (running .getFlags 0 []))).map
    (fun r => (r.status, r.flagsValid, r.flags)) = some (.ok, true, some 0x08) := by decide +kernel
/-- P1, exchange 3: what is sent, and what is latched before. -/
theorem test_setup_write3 :
    (nextOf (exec (.setup 102400 (1 / 4) 250 125) (running .getFlags 2 [st 8]))).map
      (fun t => (sentFrames t.bus, t.ax.cfgRun, t.ax.cfgHold)) =
      some ([⟨0x90, 0x00, 0x07, 0x03, 0x01⟩], some 3, some 1) := by decide +kernel
/-- S-31. -/
theorem test_setup_zero_time : (nextOf (exec (.setup 1000 0 250 125) (running .getFlags 5 [st 8]))).map
    (fun t => (t.ax.resp.bind (·.info), t.ax.cfgA, t.bus)) = some (some (.scaleDomain 0), none, []) := by decide +kernel
/-- M-2: POSITION_REACHED in the priming read does not end the move. -/
theorem test_moveAbs_priming : (nextOf (exec (.moveAbs 100 true) (running (.moveAbs 100 true) 2 [st 0x20]))).map
    (fun t => (t.ax.busy, t.ax.resp)) = some (true, none) := by decide +kernel
/-- M-3: DRIVER_ERROR wins. -/
theorem test_moveAbs_both :
    (nextOf (exec (.moveAbs 100 true) (running (.moveAbs 100 true) 5 [st 0x22]))).bind
      (fun t => (respOf (exec (.moveAbs 100 true) t)).bind (·.outcome)) = some .driverError := by decide +kernel
/-- M-11, second exchange, and its first frame. -/
theorem test_getPos : sentBy (exec .getPos (running .getPos 0 [st 0])) = some [⟨0x21, 0, 0, 0, 0⟩] ∧
    (nextOf (exec .getPos (running .getPos 1 [.frame ⟨0x20, 0x00, 0x01, 0x90, 0x00⟩]))).bind
      (fun t => (respOf (exec .getPos t)).bind (·.value)) = some 102400 := by decide +kernel
/-- M-14: the argument is neither written nor checked. -/
theorem test_setPos : sentBy (exec (.setPos 4294967296) (running .getPos 0 [st 8])) = some [⟨0xA1, 0, 0, 0, 0⟩] ∧
    sentBy (exec (.setPos 4294967296) (running .getPos 1 [st 8])) = some [⟨0xAD, 0, 0, 0, 0⟩] := by decide +kernel
/-- M-15. -/
theorem test_readEnc : sentBy (exec .readEnc (running .readEnc 0 [st 0])) = some [⟨0x39, 0, 0, 0, 0⟩] ∧
    (nextOf (exec .readEnc (running .readEnc 1 [.frame ⟨0x00, 0xFF, 0xFF, 0xFF, 0x9C⟩]))).bind
      (fun t => (respOf (exec .readEnc t)).bind (·.value)) = some (-100) := by decide +kernel
/-- M-17. -/
theorem test_setEnc : sentBy (exec (.setEnc (-5 / 2)) (running .getPos 0 [st 8])) =
    some [⟨0xB9, 0xFF, 0xFF, 0xFF, 0xFE⟩] := by decide +kernel
/-- M-19. -/
theorem test_setEnc_error : (respOf (exec (.setEnc (21474836475 / 10)) (running .getPos 0 [st 8]))).bind (·.info) =
    some (.encoding .value 2147483648) := by decide +kernel
/-- X-1, X-2. -/
theorem test_reserved :
    ∀ p ∈ [(Instr.reserved0, (0x0 : BitVec 4)), (.reservedC, 0xC), (.reservedD, 0xD), (.reservedE, 0xE), (.reservedF, 0xF)],
      (respOf (exec p.1 (running p.1 0 []))).map (fun r => (r.status, r.info, r.flags)) =
        some (.eBadCommand, some (.badCommand p.2), some 0x08) := by decide +kernel
/-- R82: "no state change other than `resp`", after a command that left `upc` and `npoll` at other values. -/
theorem test_reserved_keeps :
    (nextOf (step { idle with turns := [0], ax := { idle.ax with upc := 6, npoll := 3, port := [⟨0xD, []⟩] } })).map
      (fun t => { t.ax with resp := none }) = some { idle.ax with upc := 6, npoll := 3 } := by decide +kernel
/-- R76: byte 0 of every named frame, and the data word big-endian behind it. -/
theorem test_named_frames :
    ∀ p ∈ [
      (Instr.wrGconf 0x12345678, (0x80 : Byte)), (.wrChopconf 0x12345678, 0xEC), (.wrIholdIrun 0x12345678, 0x90), (.wrTpowerdown 0x12345678, 0x91),
      (.wrPwmconf 0x12345678, 0xF0), (.wrA1 0x12345678, 0xA4), (.wrV1 0x12345678, 0xA5), (.wrAmax 0x12345678, 0xA6),
      (.wrVmax 0x12345678, 0xA7), (.wrD1 0x12345678, 0xAA), (.wrVstop 0x12345678, 0xAB), (.wrRampmode 0x12345678, 0xA0),
      (.wrXactual 0x12345678, 0xA1), (.wrXtarget 0x12345678, 0xAD), (.rdXactual 0x12345678, 0x21), (.rdXEnc 0x12345678, 0x39),
      (.wrXEnc 0x12345678, 0xB9)],
      sentBy (exec p.1 { idle with answers := [st 0x01] }) = some [⟨p.2, 0x12, 0x34, 0x56, 0x78⟩] ∧
      flagsAfter (exec p.1 { idle with answers := [st 0x01] }) = some 0x01 := by decide +kernel
/-- R71: generic frames. -/
theorem test_generic_frames :
    sentBy (exec (.frameRead 0x7F 5) { idle with answers := [st 0] }) = some [⟨0x7F, 0, 0, 0, 5⟩] ∧
    sentBy (exec (.frameWrite 0x7F 5) { idle with answers := [st 0] }) = some [⟨0xFF, 0, 0, 0, 5⟩] := by decide +kernel
/-- E-5, corrected (C1). -/
theorem test_flagsOf : flagsOf 0x21 =
    { resetOccurred := true, driverError := false, stallDetected := false, standstill := false, velocityReached := false,
      positionReached := true, stopLeft := false, stopRight := false } := by decide

/-! ## Scaling: S-1 to S-29 -/

theorem test_ccode :
    [0, -500, 49, 50, 125, 150, 250, 1550, 3049, 3050, 3100, 1549, 350, 3150, 3200].map (ccode par0) =
      [1, 1, 1, 1, 1, 2, 3, 16, 30, 31, 31, 15, 4, 31, 31] := by decide +kernel
theorem test_ccode_halfEven : [50, 250, 350].map (ccode { par0 with round := .halfEven }) = [1, 2, 4] := by decide +kernel
theorem test_iholdIrun : (iholdIrun 3 1, iholdIrun 31 31, iholdIrun 1 1) = (459521, 0x071F1F, 0x070101) := by decide
theorem test_accel :
    (accel par0 102400 (1 / 4), accel par0 12000 (3 / 10), accel par0 0 1, accel par0 50000 1527, accel par0 (-1000) (1 / 2),
      accel par0 1000 (-1 / 2)) = (6255, 611, 0, 1, -31, -31) := by decide +kernel
theorem test_vel :
    [102400, 12000, 0, 5000 / 13981, 1536001464, 1536001465, -1000].map (vel par0) =
      [143165, 16777, 0, 1, 2147483647, 2147483648, -1398] := by decide +kernel
theorem test_rnd : [-5 / 2, -26 / 10, 5 / 2].map (rnd par0) = [-2, -3, 3] := by decide +kernel
/-- 1/10 and 1/3 in binary64, from the IEEE 754 format. -/
theorem test_toBinary64 :
    toBinary64 (1 / 10) = 3602879701896397 / 36028797018963968 ∧ toBinary64 (1 / 3) = 6004799503160661 / 18014398509481984 ∧
    toBinary64 0 = 0 ∧ toBinary64 (-3 / 4) = -3 / 4 := by decide +kernel

/-! ## Steps -/

/-- The axis that the turn names takes the step, and accepts its command (P6: axis B first). -/
theorem test_step_turn :
    (nextOf (step { idle with turns := [1], answers := [st 8],
                              after := [{ Axis.reset 1 with port := [⟨0x3, [.int 0x2D, .int 500]⟩] }] })).map
      (fun t => (sentFrames t.bus, t.before.map (·.busy), t.ax.chip, t.ax.busy)) =
      some ([⟨0xAD, 0x00, 0x00, 0x01, 0xF4⟩], [false], 1, true) := by decide +kernel
/-- An idle axis with nothing to do changes nothing. -/
theorem test_step_idle : (nextOf (step { idle with turns := [0] })).map (fun t => (t.axes, t.bus)) =
    some (idle.axes, []) := by decide +kernel
/-- X-6: a command at the port of a busy axis waits. -/
theorem test_step_busy :
    (nextOf (step { running (.moveAbs 100 true) 1 [st 8] with
      turns := [0], ax := { (running (.moveAbs 100 true) 1 [st 8]).ax with port := [⟨0x5, []⟩] } })).map
      (fun t => (t.ax.cur, t.ax.port)) = some (some (.moveAbs 100 true), [⟨0x5, []⟩]) := by decide +kernel
/-- A placed word is run by the very next step. -/
theorem test_withFetchWord :
    sentBy (step ({ idle with answers := [st 8] }.withFetchWord 40 0xAD00019000)) = some [⟨0xAD, 0x00, 0x01, 0x90, 0x00⟩] ∧
    (respOf (step (idle.withFetchWord 8 0xD))).bind (·.info) = some (.badCommand 0xD) := by decide +kernel
theorem test_reset_pass : State.reset.lock = none ∧ State.reset.bus = [] := ⟨rfl, rfl⟩

/-! ## Witnesses: inputs that meet the hypotheses of the obligations, clause by clause -/

/-- A state of `running` on a free bus whose transport answers frames. -/
abbrev moving (b : Bool) (pos : Nat) : State := running (.moveAbs 100 b) pos [st 0x08]

theorem witness_SignedConversionsAreInverse :
    (-2 ^ 31 ≤ (-2 ^ 31 : Int) ∧ (-2 ^ 31 : Int) ≤ 2 ^ 31 - 1) ∧ (-2 ^ 31 ≤ (2 ^ 31 - 1 : Int)) ∧
    (u32 (-2 ^ 31), u32 (-1), u32 0, u32 (2 ^ 31 - 1)) = (0x80000000, 0xFFFFFFFF, 0, 0x7FFFFFFF) := by decide

theorem witness_CodecRangeCheckAddressFirst :
    (¬ (0 ≤ (128 : Int) ∧ (128 : Int) ≤ 0x7F)) ∧ (¬ (0 ≤ (-1 : Int) ∧ (-1 : Int) ≤ 0x7F)) ∧
    (0 ≤ (127 : Int) ∧ (127 : Int) ≤ 0x7F) ∧
    (¬ (-2 ^ 31 ≤ (2 ^ 31 : Int) ∧ (2 ^ 31 : Int) ≤ 2 ^ 31 - 1)) ∧
    (¬ (-2 ^ 31 ≤ (-2 ^ 31 - 1 : Int) ∧ (-2 ^ 31 - 1 : Int) ≤ 2 ^ 31 - 1)) ∧ -2 ^ 31 ≤ (-2 ^ 31 : Int) := by decide

theorem witness_EncodedFrameBytesAreBigEndian :
    encodeFrame .write 0x7F (-2 ^ 31) = .ok ⟨0xFF, 0x80, 0, 0, 0⟩ ∧
    encodeFrame .read 0 (2 ^ 31 - 1) = .ok ⟨0x00, 0x7F, 0xFF, 0xFF, 0xFF⟩ := by decide

theorem witness_CodecLawsRoundTripAndBijection :
    (-2 ^ 31 ≤ (2 ^ 31 - 1 : Int) ∧ (0 : Int) ≤ 0x7F) ∧ encodeFrame .read 0x21 5 = .ok ⟨0x21, 0, 0, 0, 5⟩ := by decide

theorem witness_DecodeOfEncodeIsTheInstruction :
    (Instr.frameWrite 0x01 7).wellFormed = true ∧ (Instr.frameRead 0x7F 7).wellFormed = true ∧
    (Instr.moveAbs (-1) false).wellFormed = true := by decide

theorem witness_EveryFrameDecodesToExactlyOne :
    (Instr.wrXtarget 0x64).wellFormed = true ∧ encode (.wrXtarget 0x64) = .frame ⟨0xAD, 0, 0, 0, 0x64⟩ := by
  decide +kernel

/-- One state per clause: a busy axis; a waiting frame; a waiting command; a word that is no command; nothing to do; a
waiting frame while the bus is held. -/
theorem witness_StepRunsTheDecodedInstruction :
    (∃ (s : State) (i : Instr), s.takeTurn.ax.busy = true ∧ s.takeTurn.ax.cur = some i) ∧
    (∃ (s : State) (f : Frame), s.takeTurn.ax.busy = false ∧ s.takeTurn.ax.wireIn = some f ∧ s.takeTurn.lock = none) ∧
    (∀ reserved : Bool, ∃ (s : State) (w : CommandWord) (rest : List CommandWord) (i : Instr),
      s.takeTurn.ax.busy = false ∧ s.takeTurn.ax.wireIn = none ∧ s.takeTurn.ax.port = w :: rest ∧
      decode (.command w) = .ok i ∧ i.isReserved = reserved) ∧
    (∃ (s : State) (w : CommandWord) (rest : List CommandWord) (e : DecodeError),
      s.takeTurn.ax.busy = false ∧ s.takeTurn.ax.wireIn = none ∧ s.takeTurn.ax.port = w :: rest ∧
      decode (.command w) = .error e) ∧
    (∃ s : State, s.takeTurn.ax.busy = false ∧ s.takeTurn.ax.wireIn = none ∧ s.takeTurn.ax.port = []) ∧
    (∃ (s : State) (f : Frame) (c : Nat),
      s.takeTurn.ax.busy = false ∧ s.takeTurn.ax.wireIn = some f ∧ s.takeTurn.lock = some c) := by
  refine ⟨⟨{ moving true 0 with turns := [0] }, .moveAbs 100 true, rfl, rfl⟩,
   ⟨{ idle with turns := [0], ax := { idle.ax with wireIn := some ⟨0, 0, 0, 0, 0⟩ } }, ⟨0, 0, 0, 0, 0⟩, rfl, rfl, rfl⟩, ?_,
   ⟨{ idle with turns := [0], ax := { idle.ax with port := [⟨0x3, []⟩] } }, ⟨0x3, []⟩, [], .operands 0x3, rfl, rfl, rfl,
     rfl⟩,
   ⟨{ idle with turns := [1] }, rfl, rfl, rfl⟩,
   ⟨{ idle with turns := [0], lock := some 1, ax := { idle.ax with wireIn := some ⟨0, 0, 0, 0, 0⟩ } }, ⟨0, 0, 0, 0, 0⟩, 1,
     rfl, rfl, rfl⟩⟩
  intro reserved
  cases reserved with
  | false =>
    exact ⟨{ idle with turns := [0], ax := { idle.ax with port := [⟨0x5, []⟩] } }, ⟨0x5, []⟩, [], .getFlags, rfl, rfl, rfl,
      rfl, rfl⟩
  | true =>
    exact ⟨{ idle with turns := [0], ax := { idle.ax with port := [⟨0xC, []⟩] } }, ⟨0xC, []⟩, [], .reservedC, rfl, rfl, rfl,
      rfl, rfl⟩

/-- A number that names an axis, the last one, and one that names none. -/
theorem witness_TakingTheTurnChangesNoAxis :
    ({ idle with turns := [1] } : State).turn < idle.axes.length ∧
    idle.axes.length ≤ ({ idle with turns := [2] } : State).turn := by decide

theorem witness_PlacedWordIsRunNext :
    decodeTableWord 40 0x8000000000 = some (.wrGconf 0) ∧ decodeTableWord 4 0x6 = some (.setup 0 0 0 0) ∧
    (Instr.setup 0 0 0 0).isCommand = true ∧ (Instr.setup 0 0 0 0).isReserved = false ∧
    decodeTableWord 4 0xF = some .reservedF ∧ Instr.reservedF.isReserved = true := by decide +kernel

theorem witness_EncodeFrameCommandResponds :
    (running .getFlags 0 []).ax.upc = 0 ∧ encodeFrame .write 0x2D 1 = .ok ⟨0xAD, 0, 0, 0, 1⟩ ∧
    encodeFrame .read 0x80 0 = .error (.encoding .address 128) ∧
    encodeFrame .read 0 (2 ^ 31) = .error (.encoding .value (2 ^ 31)) := by decide

theorem witness_DecodeFrameCommandResponds : (running .getFlags 0 []).ax.upc = 0 := rfl

theorem witness_GetFlagsReportsOrRaises :
    ((running .getFlags 0 []).ax.upc = 0 ∧ (running .getFlags 0 []).ax.flags = some 0x08) ∧
    (idle.ax.upc = 0 ∧ idle.ax.flags = none) := by decide

theorem witness_ReservedCodesRaiseBadCommand :
    ∃ (s : State) (c : BitVec 4) (ops : List Operand) (rest : List CommandWord), (c = 0x0 ∨ 0xC ≤ c.toNat) ∧
      s.ax.busy = false ∧ s.ax.cur = none ∧ s.ax.rx = none ∧ s.ax.wireIn = none ∧ s.ax.port = ⟨c, ops⟩ :: rest :=
  ⟨{ idle with ax := { idle.ax with upc := 6, npoll := 3, port := [⟨0xC, [.int 1]⟩] } }, 0xC, [.int 1], [], by decide, rfl,
    rfl, rfl, rfl, rfl⟩

theorem witness_ReadingUnsetResponseFlagsFaults :
    (∃ (a : Axis) (r : Response), a.resp = some r ∧ r.flagsValid = r.flags.isSome ∧ r.flagsValid = false) ∧
    (∃ (a : Axis) (r : Response), a.resp = some r ∧ r.flagsValid = r.flags.isSome ∧ r.flagsValid = true) :=
  ⟨⟨{ idle.ax with resp := some (Response.good none) }, Response.good none, rfl, rfl, rfl⟩,
   ⟨{ idle.ax with resp := some (Response.good (some 0)) }, Response.good (some 0), rfl, rfl, rfl⟩⟩

theorem witness_WireFramesAreExchanged :
    (moving true 1).lock = none ∧ (moving true 1).answer = .frame ⟨0x08, 0, 0, 0, 0⟩ := by decide

/-- A wire frame, a command's exchange and SETUP, each while the bus is held. -/
theorem witness_HeldLockMakesExchangesWait :
    ∃ (s : State) (c : Nat) (i : Instr) (t : State), s.lock = some c ∧ (Instr.wrGconf 0).isCommand = false ∧
      exec i s = .next t ∧ s.ax.upc = 0 :=
  ⟨{ running .getPos 0 [] with lock := some 1 }, 1, .getPos, { running .getPos 0 [] with lock := some 1 }, rfl, rfl, rfl,
    rfl⟩

theorem witness_SingleWriteCommandsComplete :
    ((running (.writeReg 0x7F 0) 0 [st 8]).ax.upc = 0 ∧ (running (.writeReg 0x7F 0) 0 [st 8]).lock = none ∧
      (running (.writeReg 0x7F 0) 0 [st 8]).answer = .frame ⟨8, 0, 0, 0, 0⟩) ∧
    (running (.setEnc 1) 1 []).ax.upc = 1 ∧
    rnd par0 (num par0 (21474836474 / 10)) = 2 ^ 31 - 1 := by decide +kernel

theorem witness_OutOfRangeOperandsRaiseBeforeExchange :
    (running .getPos 0 []).ax.upc = 0 ∧ encodeFrame .write (-1) 0 = .error (.encoding .address (-1)) ∧
    (¬ (0 ≤ (0x80 : Int) ∧ (0x80 : Int) ≤ 0x7F)) ∧
    (¬ (-2 ^ 31 ≤ (2 ^ 31 : Int) ∧ (2 ^ 31 : Int) ≤ 2 ^ 31 - 1)) ∧
    (¬ (-2 ^ 31 ≤ rnd par0 (num par0 (21474836475 / 10)) ∧ rnd par0 (num par0 (21474836475 / 10)) ≤ 2 ^ 31 - 1)) := by
  decide +kernel

theorem witness_SetPosWritesZeroTwice :
    ∀ pos ∈ [0, 1, 2], (running (.setPos 5) pos [st 8]).lock = none ∧
      (running (.setPos 5) pos [st 8]).answer = .frame ⟨8, 0, 0, 0, 0⟩ ∧ (running (.setPos 5) pos [st 8]).ax.upc = pos := by
  decide

theorem witness_ReadCommandsExchangeTwiceAndRespond :
    ∀ pos ∈ [0, 1, 2], (running .readEnc pos [st 8]).lock = none ∧ (running .readEnc pos [st 8]).ax.upc = pos ∧
      (running .readEnc pos [st 8]).answer = .frame ⟨8, 0, 0, 0, 0⟩ ∧
      (running .readEnc pos [st 8]).ax.rx = some ⟨8, 0, 0, 0, 0x64⟩ ∧ (0 : Int) ≤ 0x7F := by decide

theorem witness_ReadRegRunReturnsSecondResponse :
    ∃ (s : State) (a : Int) (r1 r2 : Frame) (rest : List Answer), 0 ≤ a ∧ a ≤ 0x7F ∧ s.lock = none ∧
      s.ax.busy = true ∧ s.ax.cur = some (.readReg a) ∧ s.ax.upc = 0 ∧ s.answers = .frame r1 :: .frame r2 :: rest :=
  ⟨running (.readReg 0x7F) 0 [st 0, st 8], 0x7F, ⟨0, 0, 0, 0, 0⟩, ⟨8, 0, 0, 0, 0⟩, [], by decide, by decide, rfl, rfl, rfl,
    rfl, rfl⟩

theorem witness_RoundingFollowsPRound :
    par0.round = .halfUp ∧ ({ par0 with round := .halfEven } : Params).round = .halfEven ∧
    (5 / 2 : Rat) = (rnd { par0 with round := .halfEven } (5 / 2) : Rat) + 1 / 2 := by decide +kernel

theorem witness_CurrentCodeIsClamped :
    par0.numerics = .exact ∧ rnd par0 (49 / 100) < 1 ∧ 31 < rnd par0 (3150 / 100) ∧
    (1 ≤ rnd par0 (50 / 100) ∧ rnd par0 (3050 / 100) ≤ 31) ∧ par0.round = .halfUp ∧ (149 : Rat) < 150 ∧
    (3050 : Rat) ≤ 3050 := by decide +kernel

theorem witness_CurrentWordPacksBothCodes : (1 : Int) ≤ 31 ∧ (31 : Int) ≤ 31 ∧ (1 : Int) ≤ 1 := by decide

theorem witness_MotionValuesFollowTheFormulas :
    par0.numerics = .exact ∧ par0.round = .halfUp ∧ (1 / 4 : Rat) ≠ 0 ∧ (1536001465 : Rat) ≤ 1536001465 ∧
    (0 : Rat) ≤ 1536001464 := by decide +kernel

/-- The SETUP of P1 at each position. -/
theorem witness_SetupWritesInOrder :
    (∀ pos ∈ List.range 14, (running (.setup 102400 (1 / 4) 250 125) pos [st 8]).lock = none ∧
      (running (.setup 102400 (1 / 4) 250 125) pos [st 8]).answer = .frame ⟨8, 0, 0, 0, 0⟩ ∧
      (running (.setup 102400 (1 / 4) 250 125) pos [st 8]).ax.upc = pos) ∧
    num par0 (1 / 4) ≠ 0 ∧ (-2 ^ 31 ≤ accel par0 102400 (1 / 4) ∧ accel par0 102400 (1 / 4) ≤ 2 ^ 31 - 1) ∧
    (-2 ^ 31 ≤ vel par0 1536001464 ∧ vel par0 1536001464 ≤ 2 ^ 31 - 1) := by decide +kernel

theorem witness_SetupCompletesConfigured : (running (.setup 102400 (1 / 4) 250 125) 14 []).ax.upc = 14 := rfl

/-- S-31, X-5 and S-32. -/
theorem witness_SetupRaisesAtTheFailingStep :
    ((running (.setup 1000 0 250 125) 5 []).ax.upc = 5 ∧ num par0 0 = 0) ∧
    (num par0 1 ≠ 0 ∧ ¬ (-2 ^ 31 ≤ accel par0 200000000000 1 ∧ accel par0 200000000000 1 ≤ 2 ^ 31 - 1)) ∧
    ((running (.setup 1536001465 1 250 125) 6 []).ax.upc = 6 ∧
      ¬ (-2 ^ 31 ≤ vel par0 1536001465 ∧ vel par0 1536001465 ≤ 2 ^ 31 - 1)) := by decide +kernel

/-- Each position of P1's SETUP, the transport failing; `a` in range, and a `v` at the bound of its range. -/
theorem witness_SetupAbortKeepsWhatIsLatched :
    (∀ pos ∈ List.range 14, (running (.setup 102400 (1 / 4) 250 125) pos [.error err]).lock = none ∧
      (running (.setup 102400 (1 / 4) 250 125) pos [.error err]).answer = .error err ∧
      (running (.setup 102400 (1 / 4) 250 125) pos [.error err]).ax.upc = pos) ∧
    num par0 (1 / 4) ≠ 0 ∧ (-2 ^ 31 ≤ accel par0 102400 (1 / 4) ∧ accel par0 102400 (1 / 4) ≤ 2 ^ 31 - 1) ∧
    (-2 ^ 31 ≤ vel par0 1536001464 ∧ vel par0 1536001464 ≤ 2 ^ 31 - 1) := by decide +kernel

theorem witness_SetupRunSendsTheFourteenFrames :
    ∃ (s : State) (speed t irun ihold : Rat) (rs : List Frame) (last : Frame) (rest : List Answer),
      s.lock = none ∧ s.ax.busy = true ∧ s.ax.cur = some (.setup speed t irun ihold) ∧ s.ax.upc = 0 ∧
      num s.par t ≠ 0 ∧ -2 ^ 31 ≤ accel s.par speed t ∧ accel s.par speed t ≤ 2 ^ 31 - 1 ∧
      -2 ^ 31 ≤ vel s.par speed ∧ vel s.par speed ≤ 2 ^ 31 - 1 ∧ rs.length = 13 ∧
      s.answers = rs.map .frame ++ .frame last :: rest :=
  ⟨running (.setup 102400 (1 / 4) 250 125) 0 (List.replicate 14 (st 8)), 102400, 1 / 4, 250, 125,
    List.replicate 13 ⟨8, 0, 0, 0, 0⟩, ⟨8, 0, 0, 0, 0⟩, [], rfl, rfl, rfl, rfl, by decide +kernel, by decide +kernel,
    by decide +kernel, by decide +kernel, by decide +kernel, rfl, rfl⟩

theorem witness_MoveAbsSequence :
    (∀ pos ∈ [0, 1, 2, 3, 4, 5], (moving true pos).lock = none ∧
      (moving true pos).answer = .frame ⟨0x08, 0, 0, 0, 0⟩ ∧ (moving true pos).ax.upc = pos) ∧
    (-2 ^ 31 ≤ (2 ^ 31 - 1 : Int)) ∧ (moving true 4).par.pollLimit ≠ some (moving true 4).ax.npoll ∧
    ({ par0 with pollLimit := some 0 } : Params).pollLimit = some (moving true 4).ax.npoll := by decide

theorem witness_NonBlockingMoveEndsAfterThePrimingRead :
    ∃ (s : State) (target : Int) (w p1 p2 : Frame) (rest : List Answer), s.lock = none ∧ s.ax.busy = true ∧
      s.ax.cur = some (.moveAbs target false) ∧ s.ax.upc = 0 ∧ -2 ^ 31 ≤ target ∧ target ≤ 2 ^ 31 - 1 ∧
      s.answers = .frame w :: .frame p1 :: .frame p2 :: rest :=
  ⟨running (.moveAbs (-2 ^ 31) false) 0 [st 8, st 0, st 0x20], -2 ^ 31, ⟨8, 0, 0, 0, 0⟩, ⟨0, 0, 0, 0, 0⟩,
    ⟨0x20, 0, 0, 0, 0⟩, [], rfl, rfl, rfl, rfl, by decide, by decide, rfl⟩

/-- Both terminal flags, one of them, none. -/
theorem witness_PollCheckEndsOrWaits :
    (moving true 6).ax.upc = 6 ∧ (moving true 6).ax.flags = some 0x08 ∧
    ((0x22 : Byte).toNat.testBit 1 = true) ∧
    ((0x20 : Byte).toNat.testBit 1 = false ∧ (0x20 : Byte).toNat.testBit 5 = true) ∧
    ((0xDD : Byte).toNat.testBit 1 = false ∧ (0xDD : Byte).toNat.testBit 5 = false) := by decide

/-- M-5, with a limit of 1, and M-6, with a limit of 0. -/
theorem witness_PollLimitEndsTheMove :
    (∃ (s : State) (target : Int) (w p1 p2 : Frame) (polls : List (Frame × Frame)) (rest : List Answer) (last : Byte),
      s.lock = none ∧ s.ax.busy = true ∧ s.ax.cur = some (.moveAbs target true) ∧ s.ax.upc = 0 ∧ s.ax.npoll = 0 ∧
      s.par.pollLimit = some polls.length ∧ -2 ^ 31 ≤ target ∧ target ≤ 2 ^ 31 - 1 ∧
      (∀ q ∈ polls, q.2.b0.toNat.testBit 1 = false ∧ q.2.b0.toNat.testBit 5 = false) ∧
      last = (polls.getLast?.map fun q => q.2.b0).getD p2.b0 ∧
      s.answers = .frame w :: .frame p1 :: .frame p2 ::
        (polls.flatMap fun q => [.frame q.1, .frame q.2]) ++ rest ∧ polls ≠ []) ∧
    ∃ s : State, s.par.pollLimit = some ([] : List (Frame × Frame)).length ∧
      s.answers = [st 8, st 0, st 0] ∧ s.ax.cur = some (.moveAbs 100 true) ∧ s.ax.npoll = 0 :=
  ⟨⟨{ running (.moveAbs 100 true) 0 [st 8, st 0, st 0, st 0, st 0] with par := { par0 with pollLimit := some 1 } }, 100,
     ⟨8, 0, 0, 0, 0⟩, ⟨0, 0, 0, 0, 0⟩, ⟨0, 0, 0, 0, 0⟩, [(⟨0, 0, 0, 0, 0⟩, ⟨0, 0, 0, 0, 0⟩)], [], 0, rfl, rfl, rfl, rfl, rfl,
     rfl, by decide, by decide, by decide, rfl, rfl, by decide⟩,
   ⟨{ running (.moveAbs 100 true) 0 [st 8, st 0, st 0] with par := { par0 with pollLimit := some 0 } }, rfl, rfl, rfl, rfl⟩⟩

/-- M-4's first polls, and a terminal one. -/
theorem witness_BlockingMoveEndsAtTheTerminalPoll :
    ∃ (s : State) (target : Int) (w p1 p2 qa qb : Frame) (polls : List (Frame × Frame)) (rest : List Answer),
      s.lock = none ∧ s.ax.busy = true ∧ s.ax.cur = some (.moveAbs target true) ∧ s.ax.upc = 0 ∧ s.ax.npoll = 0 ∧
      s.par.pollLimit = none ∧ -2 ^ 31 ≤ target ∧ target ≤ 2 ^ 31 - 1 ∧
      (∀ q ∈ polls, q.2.b0.toNat.testBit 1 = false ∧ q.2.b0.toNat.testBit 5 = false) ∧
      (qb.b0.toNat.testBit 1 = true ∨ qb.b0.toNat.testBit 5 = true) ∧
      s.answers = .frame w :: .frame p1 :: .frame p2 ::
        (polls.flatMap fun q => [.frame q.1, .frame q.2]) ++ .frame qa :: .frame qb :: rest :=
  ⟨running (.moveAbs 100 true) 0 [st 8, st 0, st 0, st 4, st 0xC4, st 0, st 0x20], 100, ⟨8, 0, 0, 0, 0⟩, ⟨0, 0, 0, 0, 0⟩,
    ⟨0, 0, 0, 0, 0⟩, ⟨0, 0, 0, 0, 0⟩, ⟨0x20, 0, 0, 0, 0⟩, [(⟨4, 0, 0, 0, 0⟩, ⟨0xC4, 0, 0, 0, 0⟩)], [], rfl, rfl, rfl, rfl,
    rfl, rfl, by decide, by decide, by decide, by decide, rfl⟩

/-- M-7, two polls of it. -/
theorem witness_UnboundedPollingNeverResponds :
    ∃ (s : State) (target : Int) (w p1 p2 : Frame) (polls : List (Frame × Frame)) (rest : List Answer),
      s.lock = none ∧ s.ax.busy = true ∧ s.ax.cur = some (.moveAbs target true) ∧ s.ax.upc = 0 ∧ s.ax.npoll = 0 ∧
      s.par.pollLimit = none ∧ -2 ^ 31 ≤ target ∧ target ≤ 2 ^ 31 - 1 ∧
      (∀ q ∈ polls, q.2.b0.toNat.testBit 1 = false ∧ q.2.b0.toNat.testBit 5 = false) ∧
      s.answers = .frame w :: .frame p1 :: .frame p2 ::
        (polls.flatMap fun q => [.frame q.1, .frame q.2]) ++ rest ∧ polls.length = 2 :=
  ⟨running (.moveAbs 100 true) 0 [st 8, st 0, st 0, st 0, st 0, st 0, st 0], 100, ⟨8, 0, 0, 0, 0⟩, ⟨0, 0, 0, 0, 0⟩,
    ⟨0, 0, 0, 0, 0⟩, [(⟨0, 0, 0, 0, 0⟩, ⟨0, 0, 0, 0, 0⟩), (⟨0, 0, 0, 0, 0⟩, ⟨0, 0, 0, 0, 0⟩)], [], rfl, rfl, rfl, rfl, rfl,
    rfl, by decide, by decide, by decide, rfl, rfl⟩

/-- Steps that answer a next state: a response, an answered exchange, a failed exchange, a wait; and an encoding error. -/
theorem witness_OnlyAnsweredExchangesWriteFlags :
    (∃ t, exec .getFlags (running .getFlags 0 []) = .next t) ∧
    (∃ t, exec .getPos (running .getPos 0 [st 0]) = .next t) ∧
    (∃ t, exec .getPos (running .getPos 0 [.error err]) = .next t) ∧
    (∃ t, exec (.moveAbs 100 true) (moving true 6) = .next t) ∧
    (∃ t r, exec (.readReg 0x80) (running (.readReg 0x80) 0 []) = .next t ∧ t.ax.resp = some r ∧
      r.status = .eEncoding ∧ t.ax.resp ≠ (running (.readReg 0x80) 0 []).ax.resp ∧
      (running (.readReg 0x80) 0 []).ax.busy = true ∧ t.ax.busy = false) :=
  ⟨⟨_, rfl⟩, ⟨_, rfl⟩, ⟨_, rfl⟩, ⟨_, rfl⟩, ⟨_, _, rfl, rfl, rfl, by decide +kernel, rfl, rfl⟩⟩

theorem witness_TransportErrorsArePassedOnUnchanged :
    ∃ (i : Instr) (s t : State) (e : TransportError), exec i s = .next t ∧ t.bus ≠ s.bus ∧ s.answer = .error e :=
  ⟨.getPos, running .getPos 1 [.error err], _, err, rfl, by decide +kernel, rfl⟩

theorem witness_OnlySetupWritesAxisConfig :
    ∃ t, exec (.setup 102400 (1 / 4) 250 125) (running (.setup 102400 (1 / 4) 250 125) 0 [st 8]) = .next t := ⟨_, rfl⟩

theorem witness_CommandsIgnoreConfiguration :
    (∃ (i : Instr) (t : State), (∀ speed at_ irun ihold, i ≠ .setup speed at_ irun ihold) ∧
      exec i (running .getPos 0 [st 8]) = .next t) ∧
    (∃ t, axisStep (running (.setup 102400 (1 / 4) 250 125) 2 [st 8]) = .next t) :=
  ⟨⟨.getPos, _, nofun, rfl⟩, ⟨_, rfl⟩⟩

theorem witness_ResponsesComeOnlyAtCompletion : ∃ t, exec (.setPos 0) (running (.setPos 0) 2 []) = .next t := ⟨_, rfl⟩

theorem witness_InstructionsLeaveTheRestUnchanged :
    ∃ t, exec (.moveAbs 100 true) (moving true 6) = .next t := ⟨_, rfl⟩

theorem witness_CommandFramesKeepTheInvariant :
    ∃ (i : Instr) (s t : State) (out : Frame) (ans : Answer), i.isCommand = true ∧ exec i s = .next t ∧
      t.bus = s.bus ++ exchangeEvents s.ax.chip out ans ∧ out.b0.toNat.testBit 7 = false ∧
      (∀ a v, i ≠ .writeReg a v) ∧ (∀ a, i ≠ .readReg a) :=
  ⟨.getPos, running .getPos 0 [st 8], _, ⟨0x21, 0, 0, 0, 0⟩, st 8, rfl, rfl, by decide +kernel, by decide, nofun, nofun⟩

theorem witness_InstructionsIgnoreOtherAxes : ∃ t, exec .readEnc (running .readEnc 0 [st 8]) = .next t := ⟨_, rfl⟩

/-- The reset states meet the invariant whatever the arguments, and one of them takes a step. -/
theorem idle_inv : idle.Inv := by
  refine ⟨rfl, rfl, by decide, ?_⟩
  intro a ha
  have : a = Axis.reset 0 ∨ a = Axis.reset 1 := by simpa [idle, State.resetWith, List.range_succ] using ha
  rcases this with rfl | rfl <;> constructor <;> simp [Axis.reset]

/-- No axis has an input at reset. -/
theorem witness_ResetLeavesTheBlockIdle : ∀ a ∈ State.reset.axes, a.port = [] ∧ a.wireIn = none := by
  intro a ha
  have : a ∈ Axis.reset (Config.chipMap.chip 0) ::
    (List.range Config.otherAxes).map fun i => Axis.reset (Config.chipMap.chip (i + 1)) := ha
  simp only [List.mem_cons, List.mem_map] at this
  rcases this with rfl | ⟨i, -, rfl⟩ <;> exact ⟨rfl, rfl⟩

theorem witness_EveryStepKeepsTheInvariant : ∃ s t : State, s.Inv ∧ step s = .next t :=
  ⟨{ idle with turns := [0] }, _, ⟨idle_inv.1, idle_inv.2, idle_inv.3, idle_inv.4⟩, rfl⟩

theorem witness_StepsNeverStickUnderTheInvariant : ∃ s : State, s.Inv := ⟨idle, idle_inv⟩

theorem witness_StepsChangeOneAxisOnly :
    ∃ s t : State, step s = .next t ∧ 1 ≠ s.takeTurn.before.length := ⟨{ moving true 0 with turns := [0] }, _, rfl, by decide⟩

theorem witness_CommandsLeaveThePortInOrder :
    ∃ s t : State, step s = .next t ∧ s.takeTurn.ax.port = [⟨0x5, []⟩] :=
  ⟨{ idle with turns := [0], ax := { idle.ax with port := [⟨0x5, []⟩] } }, _, rfl, rfl⟩

end Sys2Proof.Tests
end

section
/-!
PROOFS. What every instruction's step writes and leaves unchanged, read off `exec_cases`; and what stands on the bus.
-/

namespace Sys2Proof.Machine

/-! ## The frame of a step -/

theorem Latches.settles {i : Instr} {s : State} {a : Axis} (h : Latches i s a) : Settles i s a := .inr (.inl h)

/-- What a step can write: the bus with its inputs, and in its own axis what the instruction settles (`Settles`), the
registers of the command in progress, `flags`, `resp`, `rx` and the chip select. -/
theorem exec_frame {i : Instr} {s t : State} (h : exec i s = .next t) :
    t = { s with ax := t.ax, lock := t.lock, bus := t.bus, answers := t.answers, draws := t.draws } ∧
    ∃ a, Settles i s a ∧ t.ax = { a with busy := t.ax.busy, cur := t.ax.cur, upc := t.ax.upc, flags := t.ax.flags,
                                         resp := t.ax.resp, rx := t.ax.rx, cs := t.ax.cs } := by
  rcases exec_cases h with ⟨-, rfl⟩ | ⟨a, r, ha, rfl, -⟩ | ⟨a, out, r, pos, ha, -, -, -, -, rfl⟩ |
    ⟨a, out, e, ha, -, -, -, rfl⟩ | ⟨target, b, rfl, h6, rfl⟩ | ⟨out, r, -, -, -, rfl⟩
  · exact ⟨rfl, _, .inl rfl, rfl⟩
  · exact ⟨rfl, a, ha, rfl⟩
  · exact ⟨rfl, a, ha.settles, rfl⟩
  · exact ⟨rfl, a, ha.settles, rfl⟩
  · exact ⟨rfl, _, .inr (.inr (.inr ⟨target, b, rfl, h6, rfl⟩)), rfl⟩
  · exact ⟨rfl, _, .inl rfl, rfl⟩

/-- The polls a step settles: none, or the one poll of MOVE_ABS's check (R137). -/
theorem Settles.npoll {i : Instr} {s : State} {a : Axis} (h : Settles i s a) :
    a.npoll = s.ax.npoll ∨ ∃ target b, i = .moveAbs target b ∧ s.ax.upc = 6 ∧ a.npoll = s.ax.npoll + 1 := by
  rcases h with rfl | h | ⟨_, _, _, _, -, -, rfl⟩ | ⟨target, b, rfl, h6, rfl⟩
  · exact .inl rfl
  · exact .inl h.npoll
  · exact .inl rfl
  · exact .inr ⟨target, b, rfl, h6, rfl⟩

/-- A step that counts a poll is MOVE_ABS's check, which has no exchange (R137, R140). -/
theorem exec_npoll {i : Instr} {s t : State} (h : exec i s = .next t) :
    t.ax.npoll = s.ax.npoll ∨
    ∃ target b, i = .moveAbs target b ∧ s.ax.upc = 6 ∧ t.ax.npoll = s.ax.npoll + 1 ∧ t.bus = s.bus := by
  rcases exec_cases h with ⟨-, rfl⟩ | ⟨a, r, ha, rfl, -⟩ | ⟨a, out, r, pos, ha, -, -, -, -, rfl⟩ |
    ⟨a, out, e, ha, -, -, -, rfl⟩ | ⟨target, b, rfl, h6, rfl⟩ | ⟨out, r, -, -, -, rfl⟩
  · exact .inl rfl
  · exact ha.npoll.imp_right fun ⟨target, b, hi, h6, hn⟩ => ⟨target, b, hi, h6, hn, rfl⟩
  · exact .inl ha.npoll
  · exact .inl ha.npoll
  · exact .inr ⟨target, b, rfl, h6, rfl, rfl⟩
  · exact .inl rfl

/-- A wire frame is an exchange of one frame (R76, log 3). -/
theorem exec_wire {i : Instr} (hi : i.isCommand = false) : ∃ out, ∀ s, exec i s = exchangeFrame out s := by
  cases i <;> cases hi <;> exact ⟨_, fun _ => rfl⟩

/-- Settles O42: what a step settles in its axis touches AxisConfig and `configured` for SETUP only. -/
theorem onlySetupWritesAxisConfig : Obligations.OnlySetupWritesAxisConfig := by
  intro i s t h
  obtain ⟨-, a, ha, hax⟩ := exec_frame h
  rw [hax]
  exact ha.config

/-- Settles O44: of the shapes of a step, a response and a transport error set `resp` and end the command, and the other
ones leave both alone. -/
theorem responsesComeOnlyAtCompletion : Obligations.ResponsesComeOnlyAtCompletion := by
  intro i s t h
  rcases exec_cases h with ⟨-, rfl⟩ | ⟨a, r, ha, rfl, hv, hf, hi, -⟩ | ⟨a, out, r, pos, ha, -, -, -, -, rfl⟩ |
    ⟨a, out, e, ha, -, -, -, rfl⟩ | ⟨_, _, -, -, rfl⟩ | ⟨out, r, -, -, -, rfl⟩
  · exact .inl ⟨rfl, rfl, rfl⟩
  · obtain ⟨-, -, -, -, hflags, -⟩ := ha.unchanged
    exact .inr ⟨rfl, rfl, r, rfl, hv.trans (congrArg _ hflags.symm), hf.trans hflags.symm, hi⟩
  · obtain ⟨-, hbusy, hcur, -, -, hresp, -⟩ := ha.settles.unchanged
    exact .inl ⟨hresp, hbusy, hcur⟩
  · exact .inr ⟨rfl, rfl, _, rfl, rfl, rfl, nofun⟩
  · exact .inl ⟨rfl, rfl, rfl⟩
  · exact .inl ⟨rfl, rfl, rfl⟩

/-- Settles O45, by the frame of a step and `exec_npoll`. -/
theorem instructionsLeaveTheRestUnchanged : Obligations.InstructionsLeaveTheRestUnchanged := by
  intro i s t h
  obtain ⟨ht, a, ha, hax⟩ := exec_frame h
  obtain ⟨hchip, -, -, -, -, -, -, -, hport, hwire⟩ := ha.unchanged
  exact ⟨(congrArg State.par ht :), (congrArg State.before ht :), (congrArg State.after ht :),
    (congrArg State.turns ht :), (congrArg State.ticks ht :), (congrArg Axis.chip hax).trans hchip,
    (congrArg Axis.port hax).trans hport, (congrArg Axis.wireIn hax).trans hwire,
    (exec_npoll h).imp_right fun ⟨target, b, hi, _, hn, hbus⟩ => ⟨target, b, hi, hn, hbus⟩⟩

/-! ## The bus -/

/-- A step has no exchange, or one answered by a frame, which sets `flags`, or one that ended in a transport error; the
lock and the chip select are released after either (R23, R62, R108, R184). -/
theorem exec_exchanges {i : Instr} {s t : State} (h : exec i s = .next t) :
    (t.bus = s.bus ∧ t.ax.flags = s.ax.flags ∧ t.answers = s.answers ∧ t.draws = s.draws ∧ t.lock = s.lock) ∨
    (∃ out r, s.lock = none ∧ s.answer = .frame r ∧ t.bus = s.bus ++ exchangeEvents s.ax.chip out (.frame r) ∧
      t.ax.flags = some r.b0 ∧ t.answers = s.answers.tail ∧ t.draws = s.draws + 1 ∧ t.lock = none ∧
      t.ax.cs = false) ∨
    (∃ out e, s.lock = none ∧ s.answer = .error e ∧ t.bus = s.bus ++ exchangeEvents s.ax.chip out (.error e) ∧
      t.ax.flags = s.ax.flags ∧ t.answers = s.answers.tail ∧ t.draws = s.draws + 1 ∧ t.lock = none ∧
      t.ax.cs = false) := by
  rcases exec_cases h with ⟨-, rfl⟩ | ⟨a, r, ha, rfl, -⟩ | ⟨a, out, r, pos, ha, -, -, hl, hans, rfl⟩ |
    ⟨a, out, e, ha, -, hl, hans, rfl⟩ | ⟨_, _, -, -, rfl⟩ | ⟨out, r, -, hl, hans, rfl⟩
  · exact .inl ⟨rfl, rfl, rfl, rfl, rfl⟩
  · obtain ⟨-, -, -, -, hflags, -⟩ := ha.unchanged
    exact .inl ⟨rfl, hflags, rfl, rfl, rfl⟩
  · obtain ⟨hchip, -⟩ := ha.settles.unchanged
    exact .inr (.inl ⟨out, r, hl, hans, by rw [← hchip]; rfl, rfl, rfl, rfl, rfl, rfl⟩)
  · obtain ⟨hchip, -, -, -, hflags, -⟩ := ha.settles.unchanged
    exact .inr (.inr ⟨out, e, hl, hans, by rw [← hchip]; rfl, hflags, rfl, rfl, rfl, rfl⟩)
  · exact .inl ⟨rfl, rfl, rfl, rfl, rfl⟩
  · exact .inr (.inl ⟨out, r, hl, hans, rfl, rfl, rfl, rfl, rfl, rfl⟩)

/-- ENCODE_FRAME, DECODE_FRAME and GET_FLAGS are one step without an exchange (R23, R92, R95, R113). -/
theorem exec_codec_quiet {i : Instr} {s t : State}
    (hi : (∃ d a v, i = .encodeFrame d a v) ∨ (∃ f, i = .decodeFrame f) ∨ i = .getFlags) (h : exec i s = .next t) :
    t.bus = s.bus ∧ t.ax.flags = s.ax.flags := by
  rcases hi with ⟨d, a, v, rfl⟩ | ⟨f, rfl⟩ | rfl
  · rw [exec, execEncodeFrame] at h
    obtain ⟨-, rfl⟩ := oneStep_next h
    cases hf : encodeFrame d a v <;> simp
  · obtain ⟨-, rfl⟩ := oneStep_next (f := State.respond _) h
    exact ⟨rfl, rfl⟩
  · rw [exec, execGetFlags] at h
    obtain ⟨-, rfl⟩ := oneStep_next h
    cases hf : s.ax.flags <;> simp [hf]

/-- A step that ends a command with E_ENCODING, or newly sets such a response, has no exchange: the error is raised
before any bus activity (R109, R110), and an answered exchange sets no response. -/
theorem exec_encodingError_quiet {i : Instr} {s t : State} {r : Response} (h : exec i s = .next t)
    (hr : t.ax.resp = some r) (hs : r.status = .eEncoding)
    (hnew : t.ax.resp ≠ s.ax.resp ∨ (s.ax.busy = true ∧ t.ax.busy = false)) :
    t.bus = s.bus ∧ t.ax.flags = s.ax.flags := by
  rcases exec_cases h with ⟨-, rfl⟩ | ⟨a, _, ha, rfl, -⟩ | ⟨a, out, _, pos, ha, -, -, -, -, rfl⟩ |
    ⟨a, out, e, -, -, -, -, rfl⟩ | ⟨_, _, -, -, rfl⟩ | ⟨out, _, -, -, -, rfl⟩
  · exact ⟨rfl, rfl⟩
  · obtain ⟨-, -, -, -, hflags, -⟩ := ha.unchanged
    exact ⟨rfl, hflags⟩
  · obtain ⟨-, hbusy, -, -, -, hresp, -⟩ := ha.settles.unchanged
    simp [hbusy, hresp] at hnew
  · cases hr; cases hs
  · exact ⟨rfl, rfl⟩
  · simp at hnew

/-- Settles O40, by the shapes of a step: `exec_exchanges` and the two kinds of steps that never exchange. -/
theorem onlyAnsweredExchangesWriteFlags : Obligations.OnlyAnsweredExchangesWriteFlags := by
  intro i s t h
  refine ⟨exec_exchanges h, ?_⟩
  rintro (hi | hi | hi | ⟨r, hr, hs, hnew⟩)
  · exact exec_codec_quiet (.inl hi) h
  · exact exec_codec_quiet (.inr (.inl hi)) h
  · exact exec_codec_quiet (.inr (.inr hi)) h
  · exact exec_encodingError_quiet h hr hs hnew

/-! ## The frames of host commands -/

/-- The events of an exchange tell its frame. -/
theorem exchangeEvents_out {c c' : Nat} {out out' : Frame} {ans ans' : Answer}
    (h : exchangeEvents c out ans = exchangeEvents c' out' ans') : out = out' := by
  simpa using congrArg sentFrames h

/-- The frame a step puts on the bus is one its instruction sends. -/
theorem exec_sends {i : Instr} {s t : State} {c : Nat} {out : Frame} {ans : Answer} (h : exec i s = .next t)
    (hbus : t.bus = s.bus ++ exchangeEvents c out ans) : Sends i out := by
  have quiet : s.bus ≠ s.bus ++ exchangeEvents c out ans := by simp [exchangeEvents]
  rcases exec_cases h with ⟨-, rfl⟩ | ⟨a, r, -, rfl, -⟩ | ⟨a, out', r, pos, -, ho, -, -, -, rfl⟩ |
    ⟨a, out', e, -, ho, -, -, rfl⟩ | ⟨_, _, -, -, rfl⟩ | ⟨out', r, hi, -, -, rfl⟩
  · exact (quiet hbus).elim
  · exact (quiet hbus).elim
  · rwa [← exchangeEvents_out (List.append_cancel_left hbus)]
  · rwa [← exchangeEvents_out (List.append_cancel_left hbus)]
  · exact (quiet hbus).elim
  · exact .inl hi

/-- The address bits of an encoded frame are the address (R71). -/
theorem encodeFrame_address {d : Dir} {a v : Int} {out : Frame} (h : encodeFrame d a v = .ok out) :
    (out.b0.toNat % 0x80 : Int) = a := by
  obtain ⟨ha, -, rfl⟩ := (encodeFrame_ok_iff ..).1 h
  have hmod : (commandByte d (BitVec.ofInt 7 a)).toNat % 0x80 = (BitVec.ofInt 7 a).toNat := commandByte_mod ..
  have haddr := ofInt7_toNat ((inRegSpace_iff a).1 ha)
  rw [b0_ofParts]
  omega

/-- An encoded frame without the write bit is a read frame (R70). -/
theorem encodeFrame_read {d : Dir} {a v : Int} {out : Frame} (h : encodeFrame d a v = .ok out)
    (hb : out.b0.toNat.testBit 7 = false) : d = .read := by
  obtain ⟨-, -, rfl⟩ := (encodeFrame_ok_iff ..).1 h
  rw [b0_ofParts, commandByte_testBit] at hb
  cases d with
  | read => rfl
  | write => cases hb

/-- The data bytes of an encoded 0 are 0 (R72). -/
theorem encodeFrame_zero {d : Dir} {a : Int} {out : Frame} (h : encodeFrame d a 0 = .ok out) :
    out.b1 = 0 ∧ out.b2 = 0 ∧ out.b3 = 0 ∧ out.b4 = 0 := by
  obtain ⟨-, -, rfl⟩ := (encodeFrame_ok_iff ..).1 h
  exact ⟨rfl, rfl, rfl, rfl⟩

/-- The address of GSTAT is GSTAT's alone (R35). -/
theorem reg_addr_ne_gstat {reg : Reg} (h : reg ≠ .gstat) : reg.addr ≠ 0x01 := by
  revert h; cases reg <;> decide

/-- Settles O46: every frame a host command sends is the encoding of an accepted triple as `Sends` says. -/
theorem commandFramesKeepTheInvariant : Obligations.CommandFramesKeepTheInvariant := by
  intro i s t out ans hi h hbus
  rcases exec_sends h hbus with hw | ⟨d, a, v, hout, hread, hreg⟩
  · rw [hi] at hw; cases hw
  have haddr := encodeFrame_address hout
  constructor
  · intro hb
    obtain rfl := hread (encodeFrame_read hout hb)
    exact encodeFrame_zero hout
  · intro hnw hnr
    rcases hreg with ⟨reg, rfl, hne⟩ | ⟨v', rfl⟩ | rfl
    · have := reg_addr_ne_gstat hne
      exact ⟨by omega, reg, haddr⟩
    · exact (hnw _ _ rfl).elim
    · exact (hnr _ rfl).elim

/-! ## What the axis that has the turn runs -/

/-- Settles O9: the clauses are the branches of `State.fetch`. -/
theorem stepRunsTheDecodedInstruction : Obligations.StepRunsTheDecodedInstruction := by
  rintro s t rfl
  unfold step axisStep State.fetch
  refine ⟨?running, ?wire, ?command, ?refused, ?idle, ?waiting⟩
  case running => intro i hb hc; simp [hb, hc]
  case wire => intro f hb hf hl; simp [hb, hf, hl]
  case command =>
    intro w rest i hb hf hp hd
    have hd : decodeCommand w = .ok i := hd
    constructor <;> intro hr <;> simp [hb, hf, hp, hd, State.accept, hr]
  case refused =>
    intro w rest e hb hf hp hd
    have hd : decodeCommand w = .error e := hd
    simp [hb, hf, hp, hd]
  case idle => intro hb hf hp; simp [hb, hf, hp]
  case waiting => intro f c hb hf hl; simp [hb, hf, hl]

end Sys2Proof.Machine
end

section
/-!
PROOFS. The invariant: what a step of a running instruction keeps of its axis, and that such a step always has a next state.
-/

namespace Sys2Proof.Machine

/-! ## The clauses of the invariant that speak of no command -/

/-- What the invariant says of `configured` and AxisConfig alone (R20, R26, R27, R128). -/
structure Axis.ConfigInv (a : Axis) : Prop where
  run_range : ∀ n ∈ a.cfgRun, 1 ≤ n ∧ n ≤ 31
  hold_range : ∀ n ∈ a.cfgHold, 1 ≤ n ∧ n ≤ 31
  latched_together : a.cfgRun.isSome = a.cfgHold.isSome ∧ a.cfgA.isSome = a.cfgV.isSome
  configured_full : a.configured = true → a.cfgRun.isSome = true ∧ a.cfgA.isSome = true

theorem Axis.Inv.config {p : Params} {a : Axis} (h : a.Inv p) : a.ConfigInv :=
  ⟨h.run_range, h.hold_range, h.latched_together, h.configured_full⟩

/-- The invariant of an idle axis: no clause about a current command is left. -/
theorem Axis.Inv.of_idle {p : Params} {a : Axis} (hbusy : a.busy = false) (hcur : a.cur = none) (hrx : a.rx = none)
    (hcs : a.cs = false) (hconfig : a.ConfigInv) (hpolls : ∀ n ∈ p.pollLimit, a.npoll ≤ n)
    (hresp : ∀ r ∈ a.resp, r.Inv) : a.Inv p where
  busy_cur := by rw [hbusy, hcur]; rfl
  position := by simp [hcur]
  held := by simp [hcur]
  idle_bare _ := hrx
  deselected := hcs
  run_range := hconfig.run_range
  hold_range := hconfig.hold_range
  latched_together := hconfig.latched_together
  configured_full := hconfig.configured_full
  setup_latches := by simp [hcur]
  polls n hn := ⟨hpolls n hn, by simp [hcur]⟩
  response := hresp

/-- A current code is in its range whatever the current is (R122). -/
theorem ccode_range (p : Params) (ma : Rat) : 1 ≤ ccode p ma ∧ ccode p ma ≤ 31 := by
  unfold ccode clamp; omega

/-! ## What a step settles meets the invariant -/

/-- The instruction may run: it is the current command, or a wire frame at an axis that has none (log 3). -/
def Running (i : Instr) (s : State) : Prop := s.ax.cur = some i ∨ (i.isCommand = false ∧ s.ax.cur = none)

theorem Running.cur {i : Instr} {s : State} (h : Running i s) (hi : i.isCommand = true) : s.ax.cur = some i :=
  h.resolve_right fun hw => by simp [hi] at hw

theorem Running.cur_none {i : Instr} {s : State} (h : Running i s) (hs : s.ax.Inv s.par) (hi : i.isCommand = false) :
    s.ax.cur = none := by
  rcases h with hc | ⟨-, hc⟩
  · have := (hs.position i hc).1
    simp [hi] at this
  · exact hc

section Settled

variable {i : Instr} {s : State} {a : Axis}

/-- SETUP's latches keep the configuration's invariant: the codes are in range, and each pair is latched together. -/
theorem setupLatch_configInv (p : Params) (speed at_ run hold : Rat) (n : Nat) (h : a.ConfigInv) :
    (setupLatch (setupResult p speed at_ run hold) n a).ConfigInv := by
  unfold setupLatch
  split
  · exact ⟨h.run_range, h.hold_range, h.latched_together, nofun⟩
  · refine ⟨?_, ?_, ⟨rfl, h.latched_together.2⟩, fun hc => ⟨rfl, (h.configured_full hc).2⟩⟩
    · rintro _ ⟨⟩; exact ccode_range ..
    · rintro _ ⟨⟩; exact ccode_range ..
  · exact ⟨h.run_range, h.hold_range, ⟨h.latched_together.1, rfl⟩, fun hc => ⟨(h.configured_full hc).1, rfl⟩⟩
  · exact h

/-- What a step settles keeps the configuration's invariant; a SETUP that becomes configured has latched all of it. -/
theorem Settles.configInv (ha : Settles i s a) (hs : s.ax.Inv s.par) (hi : Running i s) : a.ConfigInv := by
  have hc := hs.config
  rcases ha with rfl | (⟨-, rfl⟩ | ⟨speed, at_, run, hold, -, rfl⟩) | ⟨speed, at_, run, hold, rfl, h14, rfl⟩ |
    ⟨_, _, -, -, rfl⟩
  · exact hc
  · exact hc
  · exact setupLatch_configInv _ _ _ _ _ _ hc
  · obtain ⟨-, hcodes, hmotion⟩ := hs.setup_latches _ _ _ _ (hi.cur rfl)
    obtain ⟨hrun, -⟩ := hcodes (by omega)
    obtain ⟨haccel, -⟩ := hmotion (by omega)
    exact ⟨hc.run_range, hc.hold_range, hc.latched_together, fun _ => by simp [hrun, haccel]⟩
  · exact ⟨hc.run_range, hc.hold_range, hc.latched_together, hc.configured_full⟩

/-- What a step settles keeps the polls within the limit (R141). -/
theorem Settles.polls (ha : Settles i s a) (hs : s.ax.Inv s.par) (hi : Running i s) :
    ∀ n ∈ s.par.pollLimit, a.npoll ≤ n := by
  intro n hn
  obtain ⟨hle, hlt⟩ := hs.polls n hn
  rcases ha.npoll with h | ⟨target, b, rfl, h6, h⟩
  · omega
  · have := hlt _ _ (hi.cur rfl) (by omega)
    omega

/-- A step that ends the command leaves an idle axis that meets the invariant. -/
theorem Settles.idle_inv (ha : Settles i s a) (hs : s.ax.Inv s.par) (hi : Running i s) {r : Response} (hr : r.Inv)
    {cs : Bool} (hcs : cs = false) :
    ({ a with resp := some r, busy := false, cur := none, rx := none, cs := cs } : Axis).Inv s.par := by
  have hc := ha.configInv hs hi
  refine .of_idle rfl rfl rfl hcs ?_ (ha.polls hs hi) ?_
  · exact ⟨hc.run_range, hc.hold_range, hc.latched_together, hc.configured_full⟩
  · rintro _ ⟨⟩; exact hr

/-- What SETUP has latched once its step has moved on to the next position (R128). -/
theorem Latches.setup_latches (ha : Latches i s a) (hs : s.ax.Inv s.par) {speed at_ run hold : Rat}
    (hi : i = .setup speed at_ run hold) (hcur : s.ax.cur = some i) :
    a.configured = false ∧
    (3 ≤ s.ax.upc + 1 → a.cfgRun = some (ccode s.par run) ∧ a.cfgHold = some (ccode s.par hold)) ∧
    (6 ≤ s.ax.upc + 1 → a.cfgA = some (accel s.par speed at_) ∧ a.cfgV = some (vel s.par speed)) := by
  subst hi
  obtain ⟨hconf, hcodes, hmotion⟩ := hs.setup_latches _ _ _ _ hcur
  rcases ha with ⟨hne, -⟩ | ⟨_, _, _, _, ⟨⟩, rfl⟩
  · exact (hne _ _ _ _ rfl).elim
  rw [setupLatch_configured, setupLatch_cfgRun, setupLatch_cfgHold, setupLatch_cfgA, setupLatch_cfgV]
  refine ⟨?configured, fun h => ?codes, fun h => ?motion⟩
  case configured =>
    split
    · rfl
    · exact hconf (by omega)
  case codes =>
    split
    · exact ⟨rfl, rfl⟩
    · exact hcodes (by omega)
  case motion =>
    split
    · exact ⟨rfl, rfl⟩
    · exact hmotion (by omega)

end Settled

/-! ## A step of a running instruction keeps the invariant -/

section Exec

variable {i : Instr} {s t : State}

/-- An answered exchange of a command keeps the axis's invariant: the response frame is held, and the sequencer has gone
on within the command. -/
theorem afterFrame_axisInv {a : Axis} {pos : Nat} (hs : s.ax.Inv s.par) (hi : Running i s) (ha : Latches i s a)
    (hm : Moves i s pos) (out r : Frame) : ({ s with ax := a }.afterFrame out r pos).ax.Inv s.par := by
  obtain ⟨hcmd, -, hlast, hsetup, hmove⟩ := hm
  obtain ⟨-, hbusy, hcur, -, -, hresp, -⟩ := ha.settles.unchanged
  have hc := ha.settles.configInv hs hi
  have hi := hi.cur hcmd
  have hcur' : a.cur = some i := hcur.trans hi
  constructor
  case busy_cur => exact (hbusy.trans hs.busy_cur).trans (congrArg _ hcur.symm)
  case position =>
    intro j hj
    obtain rfl : i = j := by simpa [hcur'] using hj
    exact ⟨hcmd, hlast⟩
  case held => exact fun _ _ _ => ⟨r, rfl, rfl⟩
  case idle_bare =>
    intro hb
    have hb : a.busy = false := hb
    simp [hbusy, hs.busy_cur, hi] at hb
  case deselected => rfl
  case run_range => exact hc.run_range
  case hold_range => exact hc.hold_range
  case latched_together => exact hc.latched_together
  case configured_full => exact hc.configured_full
  case setup_latches =>
    intro speed at_ run hold hj
    obtain rfl : i = .setup speed at_ run hold := by simpa [hcur'] using hj
    obtain rfl : pos = s.ax.upc + 1 := hsetup _ _ _ _ rfl
    obtain ⟨hconf, hcodes, hmotion⟩ := ha.setup_latches hs rfl hi
    exact ⟨fun _ => hconf, hcodes, hmotion⟩
  case polls =>
    intro n hn
    obtain ⟨hle, hlt⟩ := hs.polls n hn
    have hnpoll : a.npoll = s.ax.npoll := ha.npoll
    refine ⟨hnpoll ▸ hle, fun target b hj h5 => ?_⟩
    obtain rfl : i = .moveAbs target b := by simpa [hcur'] using hj
    have hlt : s.ax.npoll < n := by
      rcases hmove _ _ rfl h5 with hne | hupc
      · exact lt_of_le_of_ne hle fun he => hne (he ▸ hn)
      · exact hlt _ _ hi hupc
    exact hnpoll ▸ hlt
  case response =>
    intro q hq
    exact hs.response q (hresp ▸ hq)

/-- MOVE_ABS's `wait()` keeps the axis's invariant: the poll counted was below the limit (R140, R141). -/
theorem moveWait_axisInv {target : Int} {b : Bool} (hs : s.ax.Inv s.par)
    (hcur : s.ax.cur = some (.moveAbs target b)) (h6 : s.ax.upc = 6) :
    ({ s.ax with npoll := s.ax.npoll + 1, upc := 4 } : Axis).Inv s.par where
  busy_cur := hs.busy_cur
  position j hj := ⟨(hs.position j hj).1, by have := (hs.position j hj).2; simp only; omega⟩
  held j hj _ := hs.held j hj (by omega)
  idle_bare := hs.idle_bare
  deselected := hs.deselected
  run_range := hs.run_range
  hold_range := hs.hold_range
  latched_together := hs.latched_together
  configured_full := hs.configured_full
  setup_latches _ _ _ _ hj := by simp [hcur] at hj
  polls n hn := by
    have := (hs.polls n hn).2 target b hcur (by omega)
    exact ⟨this, fun _ _ _ h5 => by simp only at h5; omega⟩
  response := hs.response

/-- A wire frame's exchange keeps the invariant of an axis that has no command. -/
theorem afterWireFrame_axisInv (hs : s.ax.Inv s.par) (hcur : s.ax.cur = none) (out r : Frame) :
    (s.afterWireFrame out r).ax.Inv s.par :=
  have hbusy : s.ax.busy = false := by rw [hs.busy_cur, hcur]; rfl
  have hc := hs.config
  .of_idle hbusy hcur (hs.idle_bare hbusy) rfl
    ⟨hc.run_range, hc.hold_range, hc.latched_together, hc.configured_full⟩ (fun n hn => (hs.polls n hn).1) hs.response

/-- A transport error's response is a legal one. -/
theorem transportError_inv (e : TransportError) (flags : Option Byte) :
    (Response.bad .eTransport (some (.transport e)) flags).Inv :=
  ⟨rfl, by simp [Response.bad], fun _ => ⟨rfl, rfl, rfl, rfl, rfl⟩⟩

/-- A step of a running instruction keeps its axis's invariant. -/
theorem exec_axisInv (hs : s.ax.Inv s.par) (hl : s.lock = none) (hi : Running i s) (h : exec i s = .next t) :
    t.ax.Inv s.par := by
  rcases exec_cases h with ⟨hne, rfl⟩ | ⟨a, r, ha, rfl, -, -, -, hr⟩ | ⟨a, out, r, pos, ha, -, hm, -, -, rfl⟩ |
    ⟨a, out, e, ha, -, -, -, rfl⟩ | ⟨target, b, rfl, h6, rfl⟩ | ⟨out, r, hw, -, -, rfl⟩
  · exact (hne hl).elim
  · obtain ⟨-, -, -, -, -, -, -, hcs, -⟩ := ha.unchanged
    exact ha.idle_inv hs hi hr (hcs.trans hs.deselected)
  · exact afterFrame_axisInv hs hi ha hm out r
  · exact ha.settles.idle_inv hs hi (transportError_inv e a.flags) rfl
  · exact moveWait_axisInv hs (hi.cur rfl) h6
  · exact afterWireFrame_axisInv hs (hi.cur_none hs hw) out r

/-- The machine's invariant after a change of the axis that has the turn and of the bus record. -/
theorem State.Inv.of_frame (hs : s.Inv) {a : Axis} {bus : List BusEvent} (hchip : a.chip = s.ax.chip)
    (ha : a.Inv s.par) (hbus : bracketed bus = true) (answers : List Answer) (draws : Nat) :
    ({ s with ax := a, lock := none, bus := bus, answers := answers, draws := draws } : State).Inv where
  lock_free := rfl
  whole_exchanges := hbus
  own_chips := by simpa [hchip] using hs.own_chips
  each_axis b hb := by
    simp only [axes_def, List.mem_append, List.mem_cons] at hb
    rcases hb with hb | rfl | hb
    · exact hs.each_axis b (by simp [hb])
    · exact ha
    · exact hs.each_axis b (by simp [hb])

theorem State.Inv.of_axis (hs : s.Inv) {a : Axis} (hchip : a.chip = s.ax.chip) (ha : a.Inv s.par) :
    ({ s with ax := a } : State).Inv := by
  have hl := hs.lock_free
  have := hs.of_frame hchip ha hs.whole_exchanges s.answers s.draws
  rwa [← hl] at this

/-- The axis that has the turn meets the invariant. -/
theorem State.Inv.ax (hs : s.Inv) : s.ax.Inv s.par := hs.each_axis _ (by simp)

/-- After a step the bus lock is free and the bus has carried whole exchanges only, if so before (R62, R184). -/
theorem exec_busInv (hs : s.Inv) (h : exec i s = .next t) : t.lock = none ∧ bracketed t.bus = true := by
  rcases exec_exchanges h with ⟨hbus, -, -, -, hl⟩ | ⟨out, r, -, -, hbus, -, -, -, hl, -⟩ |
    ⟨out, e, -, -, hbus, -, -, -, hl, -⟩
  · exact ⟨hl.trans hs.lock_free, hbus ▸ hs.whole_exchanges⟩
  · exact ⟨hl, by rw [hbus, bracketed_append _ _ hs.whole_exchanges]; exact bracketed_exchangeEvents ..⟩
  · exact ⟨hl, by rw [hbus, bracketed_append _ _ hs.whole_exchanges]; exact bracketed_exchangeEvents ..⟩

/-- A step of a running instruction keeps the machine's invariant. -/
theorem exec_inv (hs : s.Inv) (hi : Running i s) (h : exec i s = .next t) : t.Inv := by
  obtain ⟨ht, a, ha, hax⟩ := exec_frame h
  obtain ⟨hchip, -⟩ := ha.unchanged
  obtain ⟨hl, hbus⟩ := exec_busInv hs h
  have htchip : t.ax.chip = s.ax.chip := (congrArg Axis.chip hax).trans hchip
  have := hs.of_frame htchip (exec_axisInv hs.ax hs.lock_free hi h) hbus t.answers t.draws
  rw [← hl] at this
  rwa [ht]

end Exec

/-! ## A running instruction has a next state -/

section Next

variable {i : Instr} {s : State}

theorem oneStep_isNext (f : State → State) (h : s.ax.upc = 0) : ∃ t, oneStep f s = .next t :=
  ⟨f s, if_pos h⟩

theorem writeSequence_isNext {ws : List (Int × Int)} (h : s.ax.upc ≤ ws.length) :
    ∃ t, writeSequence ws s = .next t := by
  unfold writeSequence
  split
  · exact ⟨_, rfl⟩
  · rename_i hnone
    rw [List.getElem?_eq_none_iff] at hnone
    exact ⟨_, if_pos (le_antisymm h hnone)⟩

theorem readSequence_isNext {a : Int} (h : s.ax.upc ≤ 2) (hrx : 1 ≤ s.ax.upc → ∃ r, s.ax.rx = some r) :
    ∃ t, readSequence a s = .next t := by
  unfold readSequence
  interval_cases hupc : s.ax.upc
  · exact ⟨_, rfl⟩
  · exact ⟨_, rfl⟩
  · obtain ⟨r, hr⟩ := hrx (by decide)
    rw [hr]
    exact ⟨_, rfl⟩

theorem execSetup_isNext {speed at_ run hold : Rat} (h : s.ax.upc ≤ 14) :
    ∃ t, execSetup speed at_ run hold s = .next t := by
  unfold execSetup
  simp only
  split
  · split <;> exact ⟨_, rfl⟩
  · rename_i hnone
    have : 14 ≤ s.ax.upc := List.getElem?_eq_none_iff.1 hnone
    exact ⟨_, if_pos (by omega)⟩

theorem execMoveAbs_isNext {target : Int} {b : Bool} (h : s.ax.upc ≤ 6)
    (hflags : 1 ≤ s.ax.upc → ∃ st, s.ax.flags = some st) : ∃ t, execMoveAbs target b s = .next t := by
  unfold execMoveAbs
  rcases Nat.lt_or_eq_of_le h with hlt | h6
  · interval_cases s.ax.upc <;> exact ⟨_, rfl⟩
  · obtain ⟨st, hst⟩ := hflags (by omega)
    rw [h6, hst]
    exact ⟨_, rfl⟩

/-- Under the invariant a running instruction is at a point of its pseudocode and holds what that point needs, so its step
has a next state. -/
theorem exec_isNext (hs : s.ax.Inv s.par) (hi : Running i s) : ∃ t, exec i s = .next t := by
  cases hcmd : i.isCommand with
  | false =>
    obtain ⟨out, h⟩ := exec_wire hcmd
    exact ⟨_, h s⟩
  | true =>
    have hcur := hi.cur hcmd
    have hpos := (hs.position i hcur).2
    have hheld := hs.held i hcur
    have hrx : 1 ≤ s.ax.upc → ∃ r, s.ax.rx = some r := fun h =>
      let ⟨r, hr, _⟩ := hheld h; ⟨r, hr⟩
    have hflags : 1 ≤ s.ax.upc → ∃ st, s.ax.flags = some st := fun h =>
      let ⟨r, _, hf⟩ := hheld h; ⟨r.b0, hf⟩
    cases i with
    | encodeFrame d a v => rw [exec, execEncodeFrame]; exact oneStep_isNext _ (Nat.le_zero.1 hpos)
    | decodeFrame f => exact oneStep_isNext _ (Nat.le_zero.1 hpos)
    | getFlags => rw [exec, execGetFlags]; exact oneStep_isNext _ (Nat.le_zero.1 hpos)
    | writeReg | setPos | setEnc => exact writeSequence_isNext hpos
    | readReg | getPos | readEnc => exact readSequence_isNext hpos hrx
    | setup => exact execSetup_isNext hpos
    | moveAbs => exact execMoveAbs_isNext hpos hflags
    | reserved0 | reservedC | reservedD | reservedE | reservedF => exact ⟨_, rfl⟩
    | _ => cases hcmd

end Next

/-! ## A step of the machine -/

/-- An idle axis that has accepted a command other than a reserved code meets the invariant (R30). -/
theorem accept_axisInv {s : State} {i : Instr} (hs : s.ax.Inv s.par)
    (hi : i.isCommand = true) (hr : i.isReserved = false) : (s.accept i).ax.Inv s.par := by
  have hupc : (s.accept i).ax.upc = 0 := by simp [hr]
  have hnpoll : (s.accept i).ax.npoll = 0 := by simp [hr]
  have hcur : (s.accept i).ax.cur = some i := rfl
  constructor
  case busy_cur => rfl
  case position =>
    rintro _ ⟨⟩
    exact ⟨hi, by omega⟩
  case held => intro _ _ h; omega
  case idle_bare => exact nofun
  case deselected => exact hs.deselected
  case run_range => exact hs.run_range
  case hold_range => exact hs.hold_range
  case latched_together => exact hs.latched_together
  case configured_full => exact hs.configured_full
  case setup_latches =>
    intro _ _ _ _ _
    exact ⟨by omega, by omega, by omega⟩
  case polls =>
    intro n _
    exact ⟨by omega, by omega⟩
  case response => exact hs.response

/-- Accepting a reserved code leaves an idle axis that meets the invariant (R82). -/
theorem reserved_inv {s : State} (i : Instr) (c : BitVec 4) (hs : s.Inv) :
    ((s.accept i).raise (.badCommand c)).Inv := by
  refine hs.of_axis rfl (.of_idle rfl rfl rfl hs.ax.deselected ?config ?polls ?response)
  case config =>
    have hc := hs.ax.config
    exact ⟨hc.run_range, hc.hold_range, hc.latched_together, hc.configured_full⟩
  case polls =>
    intro n hn
    have := (hs.ax.polls n hn).1
    show (if i.isReserved then s.ax.npoll else 0) ≤ n
    split <;> omega
  case response =>
    rintro _ ⟨⟩
    exact raised_inv ..

/-- Under the invariant an axis that has the turn runs an instruction that may run, or is done in one step that keeps the
invariant (a reserved code, or nothing to do), or refuses the word at its port. -/
theorem axisStep_cases {s : State} (hs : s.Inv) :
    (∃ i u, u.Inv ∧ Running i u ∧ axisStep s = exec i u) ∨
    (∃ t, t.Inv ∧ axisStep s = .next t) ∨
    (∃ w rest e, s.ax.port = w :: rest ∧ decodeCommand w = .error e ∧ axisStep s = .refused (.badOperands w.cmd)) := by
  unfold axisStep
  rcases fetch_cases s with ⟨i, -, hc, hf⟩ | ⟨f, hb, -, -, hf⟩ | ⟨w, rest, i, -, -, -, hd, hf⟩ |
    ⟨w, rest, e, -, -, hp, hd, hf⟩ | hf <;> rw [hf]
  · exact .inl ⟨i, s, hs, .inl hc, rfl⟩
  · have ha := hs.ax
    have hc : s.ax.cur = none := by simpa [hb] using ha.busy_cur
    have hinv : ({ s.ax with wireIn := none } : Axis).Inv s.par := { ha with }
    exact .inl ⟨_, _, hs.of_axis (a := { s.ax with wireIn := none }) rfl hinv, .inr ⟨decodeWire_isCommand f, hc⟩, rfl⟩
  · cases hr : i.isReserved with
    | true =>
      obtain ⟨c, hex⟩ := exec_reserved hr (s.accept i)
      exact .inr (.inl ⟨_, reserved_inv i c hs, hex⟩)
    | false =>
      have hinv := accept_axisInv hs.ax (decodeCommand_isCommand hd) hr
      exact .inl ⟨i, s.accept i, hs.of_axis rfl hinv, .inl rfl, rfl⟩
  · exact .inr (.inr ⟨w, rest, e, hp, hd, rfl⟩)
  · exact .inr (.inl ⟨s, hs, rfl⟩)

/-- Taking the turn keeps the invariant: it changes no axis and nothing of the bus. -/
theorem takeTurn_inv {s : State} (hs : s.Inv) : s.takeTurn.Inv := by
  obtain ⟨hpar, hlock, hbus, -⟩ := focus_rest s.turn { s with turns := s.turns.tail, ticks := s.ticks + 1 }
  constructor
  · exact hlock.trans hs.lock_free
  · exact (congrArg bracketed hbus).trans hs.whole_exchanges
  · rw [takeTurn_axes]; exact hs.own_chips
  · intro a ha
    rw [takeTurn_axes] at ha
    exact hpar ▸ hs.each_axis a ha

/-- Settles O50: the turn keeps the invariant, and then the step of the axis does. -/
theorem everyStepKeepsTheInvariant : Obligations.EveryStepKeepsTheInvariant := by
  intro s t hs h
  unfold step at h
  rcases axisStep_cases (takeTurn_inv hs) with ⟨i, u, hu, hi, hx⟩ | ⟨u, hu, hx⟩ | ⟨w, rest, e, -, -, hx⟩ <;>
    rw [hx] at h
  · exact exec_inv hu hi h
  · cases h; exact hu
  · cases h

/-- Settles O51: an instruction that may run has a next state, so only a word that decodes to no command can stop the
machine. -/
theorem stepsNeverStickUnderTheInvariant : Obligations.StepsNeverStickUnderTheInvariant := by
  intro s hs
  unfold step
  rcases axisStep_cases (takeTurn_inv hs) with ⟨i, u, hu, hi, hx⟩ | ⟨u, -, hx⟩ | ⟨w, rest, e, hp, hd, hx⟩ <;> rw [hx]
  · exact .inl (exec_isNext hu.ax hi)
  · exact .inl ⟨u, rfl⟩
  · exact .inr ⟨w, rest, hp, ⟨e, hd⟩, rfl⟩

end Sys2Proof.Machine
end

section
/-!
PROOFS. Noninterference (R28): what a step does is independent of `configured` and AxisConfig. `setConfig` overwrites those
registers, and the state's operations and the instructions commute with it.
-/

namespace Sys2Proof.Machine

/-! ## Overwriting the configuration -/

/-- `configured` and AxisConfig (R26, R27). -/
structure ConfigRegs where
  configured : Bool
  cfgRun     : Option Int
  cfgHold    : Option Int
  cfgA       : Option Int
  cfgV       : Option Int

/-- The axis with its configuration overwritten. -/
def Axis.setConfig (k : ConfigRegs) (a : Axis) : Axis :=
  { a with configured := k.configured, cfgRun := k.cfgRun, cfgHold := k.cfgHold, cfgA := k.cfgA, cfgV := k.cfgV }

/-- The machine with the configuration of the axis that has the turn overwritten. -/
def State.setConfig (k : ConfigRegs) (s : State) : State := { s with ax := s.ax.setConfig k }

/-- A result with the configuration overwritten in its next state. -/
def Result.setConfig (k : ConfigRegs) : Result → Result
  | .next t => .next (t.setConfig k)
  | .fault f => .fault f
  | .refused r => .refused r

section Operations

variable (k : ConfigRegs) (s : State)

@[simp] theorem setConfig_par : (s.setConfig k).par = s.par := rfl
@[simp] theorem setConfig_lock : (s.setConfig k).lock = s.lock := rfl
@[simp] theorem setConfig_answer : (s.setConfig k).answer = s.answer := rfl
theorem setConfig_ax : (s.setConfig k).ax = s.ax.setConfig k := rfl
@[simp] theorem setConfig_ax_busy : (s.setConfig k).ax.busy = s.ax.busy := rfl
@[simp] theorem setConfig_ax_cur : (s.setConfig k).ax.cur = s.ax.cur := rfl
@[simp] theorem setConfig_ax_upc : (s.setConfig k).ax.upc = s.ax.upc := rfl
@[simp] theorem setConfig_ax_npoll : (s.setConfig k).ax.npoll = s.ax.npoll := rfl
@[simp] theorem setConfig_ax_flags : (s.setConfig k).ax.flags = s.ax.flags := rfl
@[simp] theorem setConfig_ax_rx : (s.setConfig k).ax.rx = s.ax.rx := rfl
@[simp] theorem setConfig_ax_port : (s.setConfig k).ax.port = s.ax.port := rfl
@[simp] theorem setConfig_ax_wireIn : (s.setConfig k).ax.wireIn = s.ax.wireIn := rfl

/-- A response takes only the flags from the axis (R85). -/
theorem respond_setConfig (fields : Response → Response) :
    (s.setConfig k).respond fields = (s.respond fields).setConfig k := rfl

theorem raise_setConfig (e : Error) : (s.setConfig k).raise e = (s.raise e).setConfig k := rfl

theorem xchg_setConfig (out : Frame) (pos : Nat) : (s.setConfig k).xchg out pos = (s.xchg out pos).setConfig k := by
  cases h : s.answer with
  | frame r => rw [xchg_frame h, xchg_frame (s := s.setConfig k) h]; rfl
  | error e => rw [xchg_error h, xchg_error (s := s.setConfig k) h]; rfl

/-- A logical write leaves the latched state's configuration, or waits with its own. -/
theorem logicalWrite_setConfig (k' : ConfigRegs) (latched : State) (a v : Int) (pos : Nat) :
    (s.setConfig k).logicalWrite a v pos (latched.setConfig k') = (s.logicalWrite a v pos latched).setConfig k ∨
    (s.setConfig k).logicalWrite a v pos (latched.setConfig k') = (s.logicalWrite a v pos latched).setConfig k' := by
  unfold State.logicalWrite
  cases encodeFrame .write a v with
  | error e => exact .inr rfl
  | ok out =>
    cases h : s.lock with
    | none =>
      refine .inr ?_
      simp only [whenBusFree_free h, whenBusFree_free (s := s.setConfig k) h, xchg_setConfig]
    | some c =>
      refine .inl ?_
      simp only [whenBusFree_held h, whenBusFree_held (s := s.setConfig k) h]

theorem logicalWrite_setConfig_same (a v : Int) (pos : Nat) :
    (s.setConfig k).logicalWrite a v pos (s.setConfig k) = (s.logicalWrite a v pos s).setConfig k :=
  (or_self_iff).1 (logicalWrite_setConfig k s k s a v pos)

theorem readExchange_setConfig (a : Int) (pos : Nat) :
    (s.setConfig k).readExchange a pos = (s.readExchange a pos).setConfig k := by
  unfold State.readExchange
  cases encodeFrame .read a 0 with
  | error e => rfl
  | ok out =>
    cases h : s.lock with
    | none => simp only [whenBusFree_free h, whenBusFree_free (s := s.setConfig k) h, xchg_setConfig]
    | some c => simp only [whenBusFree_held h, whenBusFree_held (s := s.setConfig k) h]

/-! ## The command shapes -/

theorem oneStep_setConfig {f : State → State} (hf : f (s.setConfig k) = (f s).setConfig k) :
    oneStep f (s.setConfig k) = Result.setConfig k (oneStep f s) := by
  unfold oneStep
  rw [setConfig_ax_upc, hf]
  split <;> rfl

theorem writeSequence_setConfig (ws : List (Int × Int)) :
    writeSequence ws (s.setConfig k) = Result.setConfig k (writeSequence ws s) := by
  unfold writeSequence
  rw [setConfig_ax_upc]
  split
  · rw [logicalWrite_setConfig_same]; rfl
  · split <;> rfl

theorem readSequence_setConfig (a : Int) : readSequence a (s.setConfig k) = Result.setConfig k (readSequence a s) := by
  unfold readSequence
  rw [setConfig_ax_upc, setConfig_ax_rx]
  split
  · rw [readExchange_setConfig]; rfl
  · rw [readExchange_setConfig]; rfl
  · split <;> rfl
  · rfl

theorem exchangeFrame_setConfig (out : Frame) :
    exchangeFrame out (s.setConfig k) = Result.setConfig k (exchangeFrame out s) := by
  unfold exchangeFrame
  cases hl : s.lock with
  | some c => rw [whenBusFree_held hl, whenBusFree_held (s := s.setConfig k) hl]; rfl
  | none =>
    rw [whenBusFree_free hl, whenBusFree_free (s := s.setConfig k) hl]
    cases h : s.answer with
    | frame r => rw [xchgKeeping_frame h, xchgKeeping_frame (s := s.setConfig k) h]; rfl
    | error e => rw [xchgKeeping_error h, xchgKeeping_error (s := s.setConfig k) h]; rfl

theorem movePoll_setConfig : movePoll (s.setConfig k) = (movePoll s).setConfig k := by
  unfold movePoll
  rw [setConfig_ax_npoll, setConfig_par, readExchange_setConfig]
  split <;> rfl

theorem moveCheck_setConfig (b : Byte) : moveCheck b (s.setConfig k) = (moveCheck b s).setConfig k := by
  unfold moveCheck
  cases pollOutcome b <;> rfl

theorem execMoveAbs_setConfig (target : Int) (b : Bool) :
    execMoveAbs target b (s.setConfig k) = Result.setConfig k (execMoveAbs target b s) := by
  unfold execMoveAbs
  rw [setConfig_ax_upc, setConfig_ax_flags, logicalWrite_setConfig_same, movePoll_setConfig]
  simp only [readExchange_setConfig]
  split
  case h_7 => -- position 6, `M_CHK`
    split
    · rw [moveCheck_setConfig]; rfl
    · rfl
  all_goals rfl

/-- No instruction but SETUP reads or writes the configuration (R28). -/
theorem exec_setConfig {i : Instr} (hi : ∀ speed at_ run hold, i ≠ .setup speed at_ run hold) :
    exec i (s.setConfig k) = Result.setConfig k (exec i s) := by
  cases hcmd : i.isCommand with
  | false =>
    obtain ⟨out, h⟩ := exec_wire hcmd
    rw [h, h, exchangeFrame_setConfig]
  | true =>
    cases i with
    | encodeFrame d a v =>
      rw [exec, execEncodeFrame]
      refine oneStep_setConfig k s ?_
      cases encodeFrame d a v <;> rfl
    | decodeFrame f => exact oneStep_setConfig k s rfl
    | getFlags =>
      rw [exec, execGetFlags]
      refine oneStep_setConfig k s ?_
      rw [setConfig_ax_flags]
      cases s.ax.flags <;> rfl
    | setup speed at_ run hold => exact (hi _ _ _ _ rfl).elim
    | moveAbs target b => exact execMoveAbs_setConfig k s target b
    | writeReg | setPos | setEnc => exact writeSequence_setConfig k s _
    | readReg | getPos | readEnc => exact readSequence_setConfig k s _
    | reserved0 | reservedC | reservedD | reservedE | reservedF => rfl
    | _ => cases hcmd

/-! ## SETUP -/

/-- What SETUP latches is the same beside the configuration. -/
theorem setupLatch_setConfig (c : SetupResult) (n : Nat) (a : Axis) :
    ∃ k', setupLatch c n (a.setConfig k) = (setupLatch c n a).setConfig k' := by
  unfold setupLatch
  split
  · exact ⟨{ k with configured := false }, rfl⟩
  · exact ⟨{ k with cfgRun := some c.run, cfgHold := some c.hold }, rfl⟩
  · exact ⟨{ k with cfgA := some c.a, cfgV := some c.v }, rfl⟩
  · exact ⟨k, rfl⟩

/-- SETUP does the same whatever the configuration is; only the configuration after it may differ. -/
theorem execSetup_setConfig (speed at_ run hold : Rat) :
    ∃ k', execSetup speed at_ run hold (s.setConfig k) = Result.setConfig k' (execSetup speed at_ run hold s) := by
  unfold execSetup
  dsimp only
  rw [setConfig_par, setConfig_ax_upc]
  split
  · split
    · exact ⟨k, rfl⟩
    · obtain ⟨k', hk⟩ := setupLatch_setConfig k (setupResult s.par speed at_ run hold) s.ax.upc s.ax
      rw [setConfig_ax, hk]
      have hwrite := logicalWrite_setConfig k s k'
        { s with ax := setupLatch (setupResult s.par speed at_ run hold) s.ax.upc s.ax }
      exact (hwrite _ _ _).elim (fun h => ⟨k, congrArg _ h⟩) fun h => ⟨k', congrArg _ h⟩
  · split
    · exact ⟨{ k with configured := true }, rfl⟩
    · exact ⟨k, rfl⟩

theorem exec_setConfig_exists (i : Instr) : ∃ k', exec i (s.setConfig k) = Result.setConfig k' (exec i s) := by
  by_cases hi : ∃ speed at_ run hold, i = .setup speed at_ run hold
  · obtain ⟨speed, at_, run, hold, rfl⟩ := hi
    exact execSetup_setConfig k s speed at_ run hold
  · exact ⟨k, exec_setConfig k s fun _ _ _ _ he => hi ⟨_, _, _, _, he⟩⟩

/-! ## A step of the axis -/

/-- What the axis is about to do, with the configuration overwritten in the state it runs in. -/
def Fetched.setConfig (k : ConfigRegs) : Fetched → Fetched
  | .run i t => .run i (t.setConfig k)
  | .wait => .wait
  | .refuse r => .refuse r

theorem fetch_setConfig : (s.setConfig k).fetch = s.fetch.setConfig k := by
  unfold State.fetch
  rw [setConfig_ax_busy, setConfig_ax_cur, setConfig_ax_wireIn, setConfig_lock, setConfig_ax_port]
  repeat' split
  all_goals rfl

end Operations

/-- Settles O43: every operation of a step commutes with overwriting the configuration. -/
theorem commandsIgnoreConfiguration : Obligations.CommandsIgnoreConfiguration := by
  intro s t c run hold a v
  have overwrite : ∀ u : State, { u with ax := { u.ax with
      configured := c, cfgRun := run, cfgHold := hold, cfgA := a, cfgV := v } } =
      u.setConfig ⟨c, run, hold, a, v⟩ := fun _ => rfl
  generalize hk : (⟨c, run, hold, a, v⟩ : ConfigRegs) = k at overwrite
  rw [overwrite, overwrite]
  constructor
  · intro i hi h
    rw [exec_setConfig k s hi, h]
    rfl
  · intro h
    unfold axisStep at h ⊢
    rw [fetch_setConfig]
    cases hf : s.fetch with
    | run i u =>
      rw [hf] at h
      obtain ⟨k', hx⟩ := exec_setConfig_exists k u i
      have h : exec i u = .next t := h
      rw [h] at hx
      exact ⟨_, _, _, _, _, hx⟩
    | wait =>
      rw [hf] at h
      cases h
      exact ⟨_, _, _, _, _, rfl⟩
    | refuse r => rw [hf] at h; cases h

end Sys2Proof.Machine
end

section
/-!
PROOFS. The encoding: `decode` and `encode` are inverse on the well-formed instructions, what the bytes of a frame and the
flags of a status byte are as numbers, and what a word placed at an axis makes the next step run.
-/

namespace Sys2Proof

/-! ## The rows of the wire frames -/

theorem decode_wireFrame_write (a : RegAddr) (w : Word32) :
    decode (wireFrame .write a w) = .ok (decodeWriteFrame a w) := by
  simp [wireFrame, decode, decodeWire]

theorem decode_wireFrame_read (a : RegAddr) (w : Word32) :
    decode (wireFrame .read a w) = .ok (decodeReadFrame a w) := by
  simp [wireFrame, decode, decodeWire]

theorem addr_eq_of_toNat {a : RegAddr} {n : Nat} (h : a.toNat = n) : a = BitVec.ofNat 7 n := by
  subst h; simp

/-- A write frame at an address without a row of its own decodes to the generic row (log 4). -/
theorem decodeWriteFrame_generic {a : RegAddr} (h : a ∉ namedWrites) (w : Word32) :
    decodeWriteFrame a w = .frameWrite a w := by
  unfold decodeWriteFrame
  split
  case h_16 => rfl
  all_goals
    obtain rfl := addr_eq_of_toNat ‹_›
    exact absurd (by decide) h

/-- A read frame at an address without a row of its own decodes to the generic row (log 4). -/
theorem decodeReadFrame_generic {a : RegAddr} (h : a ∉ namedReads) (w : Word32) :
    decodeReadFrame a w = .frameRead a w := by
  unfold decodeReadFrame
  split
  case h_3 => rfl
  all_goals
    obtain rfl := addr_eq_of_toNat ‹_›
    exact absurd (by decide) h

/-- Every write frame decodes to a well-formed instruction, whose encoding it is: a named row's, or the generic row's. -/
theorem encode_decodeWriteFrame (a : RegAddr) (w : Word32) :
    (decodeWriteFrame a w).wellFormed = true ∧ encode (decodeWriteFrame a w) = wireFrame .write a w := by
  by_cases h : a ∈ namedWrites
  · simp only [namedWrites, List.mem_cons, List.not_mem_nil, or_false] at h
    rcases h with rfl | rfl | rfl | rfl | rfl | rfl | rfl | rfl | rfl | rfl | rfl | rfl | rfl | rfl | rfl <;>
      exact ⟨rfl, rfl⟩
  · rw [decodeWriteFrame_generic h]
    exact ⟨by simpa [Instr.wellFormed] using h, rfl⟩

/-- Every read frame decodes to a well-formed instruction, whose encoding it is: a named row's, or the generic row's. -/
theorem encode_decodeReadFrame (a : RegAddr) (w : Word32) :
    (decodeReadFrame a w).wellFormed = true ∧ encode (decodeReadFrame a w) = wireFrame .read a w := by
  by_cases h : a ∈ namedReads
  · simp only [namedReads, List.mem_cons, List.not_mem_nil, or_false] at h
    rcases h with rfl | rfl <;> exact ⟨rfl, rfl⟩
  · rw [decodeReadFrame_generic h]
    exact ⟨by simpa [Instr.wellFormed] using h, rfl⟩

/-! ## Decoding and encoding are inverse -/

/-- Settles O7: a command's code and operands are read back as they stand; a wire frame's direction and address choose its
row, and well-formedness gives the generic rows only the addresses that have none. -/
theorem decodeOfEncodeIsTheInstruction : Obligations.DecodeOfEncodeIsTheInstruction := by
  intro i hi
  cases i with
  | frameRead a w =>
    have ha : a ∉ namedReads := by simpa [Instr.wellFormed] using hi
    exact (decode_wireFrame_read a w).trans (congrArg _ (decodeReadFrame_generic ha w))
  | frameWrite a w =>
    have ha : a ∉ namedWrites := by simpa [Instr.wellFormed] using hi
    exact (decode_wireFrame_write a w).trans (congrArg _ (decodeWriteFrame_generic ha w))
  | rdXactual w | rdXEnc w => exact decode_wireFrame_read _ w
  | wrGconf w | wrChopconf w | wrIholdIrun w | wrTpowerdown w | wrPwmconf w | wrA1 w | wrV1 w | wrAmax w | wrVmax w
  | wrD1 w | wrVstop w | wrRampmode w | wrXactual w | wrXtarget w | wrXEnc w => exact decode_wireFrame_write _ w
  | _ => rfl

/-- The frame of a frame's own direction, address and data word is that frame (R75). -/
theorem wireFrame_fields (f : Frame) : wireFrame f.dir f.addr f.data = .frame f := by
  unfold wireFrame
  rw [commandByte_dir_addr, ofParts_data]

/-- A wire frame decodes to a well-formed instruction, whose encoding it is. -/
theorem encode_decodeWire (f : Frame) : (decodeWire f).wellFormed = true ∧ encode (decodeWire f) = .frame f := by
  rw [← wireFrame_fields f]
  unfold decodeWire
  cases f.dir with
  | write => exact encode_decodeWriteFrame ..
  | read => exact encode_decodeReadFrame ..

/-- A frame word as a number: byte 0 above the 32 bits of the data word (R11). -/
theorem word_toNat (f : Frame) : f.word.toNat = 2 ^ 32 * f.b0.toNat + f.data.toNat := by
  rw [Frame.word, BitVec.toNat_append, ← Nat.shiftLeft_add_eq_or_of_lt f.data.isLt, Nat.shiftLeft_eq, Nat.mul_comm]

theorem dir_write_iff (f : Frame) : f.dir = .write ↔ f.word.toNat.testBit 39 = true := by
  have hbit : f.word.toNat.testBit 39 = f.b0.msb := by
    rw [word_toNat, Nat.testBit_two_pow_mul_add _ f.data.isLt, BitVec.msb_eq_getLsbD_last]
    rfl
  rw [hbit]
  unfold Frame.dir
  cases f.b0.msb <;> decide

theorem addr_toNat (f : Frame) : f.addr.toNat = f.word.toNat / 2 ^ 32 % 2 ^ 7 := by
  have := f.data.isLt
  rw [word_toNat, Frame.addr, BitVec.toNat_setWidth]
  omega

theorem ofNat_word (f : Frame) : BitVec.ofNat 32 f.word.toNat = f.data := by
  have := f.data.isLt
  apply BitVec.eq_of_toNat_eq
  rw [BitVec.toNat_ofNat, word_toNat]
  omega

/-- Settles O8: the fields are read off the frame word as a number, and O7 makes the decoded instruction the only one. -/
theorem everyFrameDecodesToExactlyOne : Obligations.EveryFrameDecodesToExactlyOne := by
  intro f
  obtain ⟨hwf, henc⟩ := encode_decodeWire f
  refine ⟨dir_write_iff f, addr_toNat f, by rw [ofNat_word]; rfl, hwf, henc, ?only⟩
  case only =>
    intro i hi hf
    have hdec := decodeOfEncodeIsTheInstruction i hi
    rw [hf] at hdec
    exact (Except.ok.inj hdec).symm

/-- Settles O6: the decoder evaluated at each word. -/
theorem writtenOutWordsDecode : Obligations.WrittenOutWordsDecode :=
  ⟨rfl, rfl, rfl, rfl, rfl, rfl, rfl, rfl⟩

/-- The command byte as a number: the address above which the write bit stands (R70). -/
theorem commandByte_toNat (d : Dir) (a : RegAddr) :
    (commandByte d a).toNat = (match d with | .write => 0x80 | .read => 0) + a.toNat := by
  revert a; cases d <;> decide

/-- A reserved code is a host command (R82). -/
theorem isCommand_of_isReserved {i : Instr} (h : i.isReserved = true) : i.isCommand = true := by
  cases i <;> cases h <;> rfl

namespace Machine

/-- The 32 bits of a number in `S32` (R90). -/
theorem u32_toNat {v : Int} (h : inS32 v = true) : ((u32 v).toNat : Int) = if v < 0 then v + 2 ^ 32 else v := by
  rw [inS32_iff] at h
  rw [u32, BitVec.toNat_ofInt]
  split <;> omega

/-- Settles O3: an encoded frame is its command byte with the 32 bits of the value. -/
theorem encodedFrameBytesAreBigEndian : Obligations.EncodedFrameBytesAreBigEndian := by
  intro d a v f h
  obtain ⟨ha, hv, rfl⟩ := (encodeFrame_ok_iff ..).1 h
  constructor
  · have haddr := ofInt7_toNat ((inRegSpace_iff a).1 ha)
    rw [b0_ofParts, commandByte_toNat, Nat.cast_add, haddr]
    cases d <;> rfl
  · rw [← data_toNat, data_ofParts]
    exact u32_toNat hv

/-! ## The status byte -/

/-- The status byte with the given flags, bit 0 first (R74). -/
def StatusFlags.toByte (fs : StatusFlags) : Byte :=
  BitVec.ofBoolListLE [fs.resetOccurred, fs.driverError, fs.stallDetected, fs.standstill, fs.velocityReached,
    fs.positionReached, fs.stopLeft, fs.stopRight]

theorem flagsOf_toByte (fs : StatusFlags) : flagsOf fs.toByte = fs := by
  obtain ⟨b0, b1, b2, b3, b4, b5, b6, b7⟩ := fs
  revert b0 b1 b2 b3 b4 b5 b6 b7
  decide

theorem toByte_flagsOf (b : Byte) : (flagsOf b).toByte = b := by
  revert b; decide

/-- Settles O5: `flagsOf` reads the bits, and `StatusFlags.toByte` is its inverse. -/
theorem statusFlagsAreTheBits : Obligations.StatusFlagsAreTheBits := by
  refine ⟨fun b => rfl, fun fs => ⟨fs.toByte, flagsOf_toByte fs, ?unique⟩⟩
  case unique =>
    rintro b rfl
    exact (toByte_flagsOf b).symm

/-! ## What the axis that has the turn accepts -/

section Accepting

variable {s : State}

/-- An idle axis accepts the command at its port and runs its first controller step (R30, R83). -/
theorem axisStep_command {w : CommandWord} {rest : List CommandWord} {i : Instr} (hb : s.ax.busy = false)
    (hf : s.ax.wireIn = none) (hp : s.ax.port = w :: rest) (hd : decodeCommand w = .ok i) :
    axisStep s = exec i (s.accept i) := by
  simp [axisStep, State.fetch, hb, hf, hp, hd]

/-- An idle axis exchanges the wire frame waiting at it while the bus is free (log 3). -/
theorem axisStep_wire {f : Frame} (hb : s.ax.busy = false) (hf : s.ax.wireIn = some f) (hl : s.lock = none) :
    axisStep s = exec (decodeWire f) { s with ax := { s.ax with wireIn := none } } := by
  simp [axisStep, State.fetch, hb, hf, hl]

/-- The axis that has the turn keeps it where its own number comes next (log 10). -/
theorem takeTurn_self (h : s.turn = s.before.length) :
    s.takeTurn = { s with turns := s.turns.tail, ticks := s.ticks + 1 } := by
  unfold State.takeTurn
  rw [h]
  exact focus_self { s with turns := s.turns.tail, ticks := s.ticks + 1 }

/-- A placed command is accepted in the next step (log 25). -/
theorem step_place_command {w : CommandWord} {i : Instr} (hd : decodeCommand w = .ok i) :
    step (s.place (.command w)) = exec i
      ({ s with ticks := s.ticks + 1, lock := none,
                ax := { s.ax with busy := false, cur := none, wireIn := none, port := w :: s.ax.port } }.accept i) := by
  rw [step, takeTurn_self rfl]
  exact axisStep_command rfl rfl rfl hd

/-- A placed wire frame is exchanged in the next step (log 25). -/
theorem step_place_frame (f : Frame) :
    step (s.place (.frame f)) = exec (decodeWire f)
      { s with ticks := s.ticks + 1, lock := none,
               ax := { s.ax with busy := false, cur := none, wireIn := none } } := by
  rw [step, takeTurn_self rfl]
  exact axisStep_wire rfl rfl rfl

/-- What the decoder reads from a table word, it reads from the encoded word the table word stands for. -/
theorem decodeTableWord_some {nbits w : Nat} {i : Instr} (h : decodeTableWord nbits w = some i) :
    ∃ e, tableWord nbits w = some e ∧ decode e = .ok i := by
  unfold decodeTableWord at h
  cases he : tableWord nbits w with
  | none => rw [he] at h; cases h
  | some e =>
    rw [he] at h
    refine ⟨e, rfl, ?_⟩
    cases hd : decode e with
    | ok j => simpa [hd, Except.toOption] using h
    | error r => simp [hd, Except.toOption] at h

end Accepting

/-- Settles O11: the placed command is accepted, or the placed wire frame taken, by the axis that keeps the turn. -/
theorem placedWordIsRunNext : Obligations.PlacedWordIsRunNext := by
  intro s nbits w i h
  obtain ⟨e, he, hd⟩ := decodeTableWord_some h
  rw [State.withFetchWord, he]
  cases e with
  | command c =>
    exact ⟨_, step_place_command hd, rfl, rfl, rfl, rfl, rfl, rfl, rfl, fun _ => ⟨rfl, rfl, rfl⟩,
      fun _ hr => by simp [hr], fun hr => by simp [hr]⟩
  | frame f =>
    obtain rfl := Except.ok.inj hd
    have hw := decodeWire_isCommand f
    refine ⟨_, step_place_frame f, rfl, rfl, rfl, rfl, rfl, rfl, rfl, ?_, ?_, ?_⟩
    · intro hc; simp [hw] at hc
    · intro hc; simp [hw] at hc
    · intro hr; simp [isCommand_of_isReserved hr] at hw

/-! ## Reserved codes and the response's flags -/

/-- A word with a reserved code decodes whatever operands stand beside the code, to an instruction that raises
E_BAD_COMMAND with it (R82, R163, log 19). -/
theorem decodeCommand_reserved {c : BitVec 4} (hc : c = 0x0 ∨ 0xC ≤ c.toNat) (ops : List Operand) :
    ∃ i, decodeCommand ⟨c, ops⟩ = .ok i ∧ i.isReserved = true ∧
      ∀ s, exec i s = .next (s.afterResponse (Response.bad .eBadCommand (some (.badCommand c)) s.ax.flags)) := by
  have codes : c = 0x0 ∨ c = 0xC ∨ c = 0xD ∨ c = 0xE ∨ c = 0xF := by revert c; decide
  rcases codes with rfl | rfl | rfl | rfl | rfl <;> exact ⟨_, rfl, rfl, fun _ => rfl⟩

/-- Settles O15: a reserved code raises in every state, and its acceptance leaves what the raise does not end. -/
theorem reservedCodesRaiseBadCommand : Obligations.ReservedCodesRaiseBadCommand := by
  refine ⟨fun s => ⟨rfl, rfl, rfl, rfl, rfl⟩, ?port⟩
  case port =>
    intro s c ops rest hc hb hcur hrx hf hp
    obtain ⟨i, hd, hr, hx⟩ := decodeCommand_reserved hc ops
    rw [axisStep_command hb hf hp hd, hx]
    simp [State.accept, State.afterResponse, hr, hp, hb, hcur, hrx]

/-- Settles O16: where `flags_valid` says whether `flags` holds a value, the read has one exactly then. -/
theorem readingUnsetResponseFlagsFaults : Obligations.ReadingUnsetResponseFlagsFaults := by
  intro a r hresp hvalid
  unfold Axis.readRespFlags
  rw [hresp]
  cases hf : r.flags with
  | none => simp [hvalid, hf]
  | some b => simp [hvalid, hf]

/-! ## The port -/

/-- No instruction touches the command port. -/
theorem exec_port {i : Instr} {s t : State} (h : exec i s = .next t) : t.ax.port = s.ax.port := by
  obtain ⟨-, -, -, -, -, -, hport, -⟩ := instructionsLeaveTheRestUnchanged i s t h
  exact hport

/-- The first controller step of an accepted command leaves it current, or has ended it with a response (R30). -/
theorem exec_accept {i : Instr} {s t : State} (h : exec i (s.accept i) = .next t) :
    t.ax.cur = some i ∨ (t.ax.cur = none ∧ t.ax.busy = false ∧ ∃ r, t.ax.resp = some r) := by
  rcases responsesComeOnlyAtCompletion i _ t h with ⟨-, -, hcur⟩ | ⟨hbusy, hcur, r, hr, -⟩
  · exact .inl hcur
  · exact .inr ⟨hcur, hbusy, r, hr⟩

/-- Settles O53: only acceptance takes a word from the port, the first one. -/
theorem commandsLeaveThePortInOrder : Obligations.CommandsLeaveThePortInOrder := by
  intro s t h
  unfold step axisStep at h
  rcases fetch_cases s.takeTurn with ⟨i, -, -, hf⟩ | ⟨f, -, -, -, hf⟩ | ⟨w, rest, i, hb, -, hp, hd, hf⟩ |
    ⟨w, rest, e, -, -, -, -, hf⟩ | hf <;> rw [hf] at h
  · exact .inl (exec_port h)
  · have hx : exec (decodeWire f) _ = .next t := h
    exact .inl (exec_port hx :)
  · have hport : t.ax.port = rest := (exec_port h).trans (by simp [State.accept, hp])
    exact .inr ⟨hb, w, i, hport ▸ hp, hd, exec_accept h⟩
  · cases h
  · cases h
    exact .inl rfl

end Machine

end Sys2Proof
end

section
/-!
PROOFS. The codec: the two signed conversions are inverse, an encoding succeeds on exactly the fields of its frame, and what
the two codec commands respond with.
-/

namespace Sys2Proof.Machine

/-! ## The signed conversions -/

/-- The signed value of a word, compared as a number (R93). -/
theorem s32_eq (r : Word32) :
    s32 r = if 2 ^ 31 ≤ (r.toNat : Int) then (r.toNat : Int) - 2 ^ 32 else (r.toNat : Int) := by
  unfold s32
  split <;> split <;> omega

theorem s32_u32 {v : Int} (h : inS32 v = true) : s32 (u32 v) = v := by
  have hbits := u32_toNat h
  rw [inS32_iff] at h
  rw [s32_eq]
  split at hbits <;> split <;> omega

theorem u32_s32 (r : Word32) : u32 (s32 r) = r := by
  have hbits := u32_toNat (s32_mem r)
  have hvalue := s32_eq r
  have hr := r.isLt
  apply BitVec.eq_of_toNat_eq
  split at hbits <;> split at hvalue <;> omega

/-- Settles O1: each conversion as a number, and the two inverse directions. -/
theorem signedConversionsAreInverse : Obligations.SignedConversionsAreInverse := by
  constructor
  · intro v hlo hhi
    have hv := (inS32_iff v).2 ⟨hlo, hhi⟩
    exact ⟨u32_toNat hv, s32_u32 hv⟩
  · intro r
    obtain ⟨hlo, hhi⟩ := (inS32_iff _).1 (s32_mem r)
    exact ⟨s32_eq r, hlo, hhi, u32_s32 r⟩

/-! ## The range check -/

theorem inRegSpace_eq_false {a : Int} (h : ¬ (0 ≤ a ∧ a ≤ 0x7F)) : inRegSpace a = false :=
  Bool.eq_false_iff.2 (mt (inRegSpace_iff a).1 h)

theorem inS32_eq_false {v : Int} (h : ¬ (-2 ^ 31 ≤ v ∧ v ≤ 2 ^ 31 - 1)) : inS32 v = false :=
  Bool.eq_false_iff.2 (mt (inS32_iff v).1 h)

/-- Settles O2: the two errors are the cases of `encodeFrame_error_iff`. -/
theorem codecRangeCheckAddressFirst : Obligations.CodecRangeCheckAddressFirst := by
  intro d a v
  refine ⟨fun ha => ?address, fun hlo hhi hv => ?value, fun hlo hhi hvlo hvhi => ?accepted⟩
  case address => exact (encodeFrame_error_iff ..).2 (.inl ⟨inRegSpace_eq_false ha, rfl⟩)
  case value =>
    exact (encodeFrame_error_iff ..).2 (.inr ⟨(inRegSpace_iff a).2 ⟨hlo, hhi⟩, inS32_eq_false hv, rfl⟩)
  case accepted =>
    exact ⟨_, encodeFrame_of_inRange d ((inRegSpace_iff a).2 ⟨hlo, hhi⟩) ((inS32_iff v).2 ⟨hvlo, hvhi⟩)⟩

/-! ## The codec is a bijection -/

/-- The address of a frame is in the register space. -/
theorem addr_inRegSpace (f : Frame) : inRegSpace f.addr.toNat = true := by
  have := f.addr.isLt
  rw [inRegSpace_iff]
  omega

/-- A triple encodes to a frame exactly if it is the frame's direction, address and signed data (R96). -/
theorem encodeFrame_ok_iff_fields (d : Dir) (a v : Int) (f : Frame) :
    encodeFrame d a v = .ok f ↔ d = f.dir ∧ a = f.addr.toNat ∧ v = s32 f.data := by
  constructor
  · intro h
    obtain ⟨ha, hv, rfl⟩ := (encodeFrame_ok_iff ..).1 h
    refine ⟨(dir_ofParts ..).symm, ?addr, ?value⟩
    case addr => rw [addr_ofParts, ofInt7_toNat ((inRegSpace_iff a).1 ha)]
    case value => rw [data_ofParts, s32_u32 hv]
  · rintro ⟨rfl, rfl, rfl⟩
    rw [encodeFrame_of_inRange _ (addr_inRegSpace f) (s32_mem _), BitVec.ofInt_natCast, BitVec.ofNat_toNat,
      BitVec.setWidth_eq, commandByte_dir_addr, u32_s32, ofParts_data]

/-- The status byte a write frame decodes to has STOP_RIGHT, the write bit (R74, R96). -/
theorem encodeFrame_write_stopRight {a v : Int} {f : Frame} (h : encodeFrame .write a v = .ok f) :
    (flagsOf f.b0).stopRight = true := by
  obtain ⟨-, -, rfl⟩ := (encodeFrame_ok_iff ..).1 h
  exact commandByte_testBit ..

/-- Settles O4: `encodeFrame_ok_iff_fields` says which triple a frame is the image of, and what decoding an encoded frame
gives back; O3 gives the status byte. -/
theorem codecLawsRoundTripAndBijection : Obligations.CodecLawsRoundTripAndBijection := by
  refine ⟨?roundTrip, ?bijection, ?range, ?onto⟩
  case roundTrip =>
    intro a v hvlo hvhi halo hahi
    have h := encodeFrame_of_inRange .write ((inRegSpace_iff a).2 ⟨halo, hahi⟩) ((inS32_iff v).2 ⟨hvlo, hvhi⟩)
    obtain ⟨-, -, hvalue⟩ := (encodeFrame_ok_iff_fields ..).1 h
    obtain ⟨hstatus, -⟩ := encodedFrameBytesAreBigEndian _ _ _ _ h
    exact ⟨_, h, hvalue.symm, hstatus, encodeFrame_write_stopRight h⟩
  case bijection =>
    intro f
    refine ⟨f.dir, f.addr.toNat, s32 f.data, (encodeFrame_ok_iff_fields ..).2 ⟨rfl, rfl, rfl⟩, ?unique⟩
    case unique => exact fun d a v => (encodeFrame_ok_iff_fields d a v f).1
  case range => exact fun f => (inS32_iff _).1 (s32_mem f.data)
  case onto =>
    intro v hlo hhi
    refine ⟨Frame.ofParts 0 (u32 v), ?_⟩
    rw [decodeFrame, data_ofParts, s32_u32 ((inS32_iff v).2 ⟨hlo, hhi⟩)]

/-! ## The codec commands -/

/-- A one-step command at acceptance runs its step. -/
theorem oneStep_of_upc_zero (f : State → State) {s : State} (h : s.ax.upc = 0) : oneStep f s = .next (f s) := if_pos h

/-- A response is the good one with the given fields set (R85). -/
theorem respond_eq_afterResponse (fields : Response → Response) (s : State) :
    s.respond fields = s.afterResponse (fields (Response.good s.ax.flags)) := rfl

/-- Settles O12: the command's one step responds or raises as the encoding succeeds or fails. -/
theorem encodeFrameCommandResponds : Obligations.EncodeFrameCommandResponds := by
  intro s d a v hupc
  rw [exec, execEncodeFrame, oneStep_of_upc_zero _ hupc]
  constructor
  · intro f h
    rw [h]
    exact congrArg _ (respond_eq_afterResponse (fun q => { q with frame := some f }) s)
  · intro field got h
    rw [h]
    exact congrArg _ (raise_encoding s field got)

/-- Settles O13: the command's one step responds with what decoding gives; the data word is bytes 1 to 4. -/
theorem decodeFrameCommandResponds : Obligations.DecodeFrameCommandResponds := by
  intro s f hupc
  rw [exec, execDecodeFrame, oneStep_of_upc_zero _ hupc, respond_eq_afterResponse]
  rfl

end Sys2Proof.Machine
end

section
/-!
PROOFS. Transactions: what a logical write, a logical read and a wire frame do on a free bus, on a held bus and with
operands out of range, and the commands that are made of them.
-/

namespace Sys2Proof.Machine

/-! ## The frames of logical writes and reads -/

/-- A register address fills the low 7 bits of a command byte. -/
theorem setWidth_ofInt7 {a : Int} (h : inRegSpace a = true) : (BitVec.ofInt 7 a).setWidth 8 = BitVec.ofInt 8 a := by
  rw [inRegSpace_iff] at h
  apply BitVec.eq_of_toNat_eq
  simp only [BitVec.toNat_setWidth, BitVec.toNat_ofInt]
  omega

/-- The frame a logical write sends is its write frame (R71, R72). -/
theorem ofParts_write {a : Int} (h : inRegSpace a = true) (v : Int) :
    Frame.ofParts (commandByte .write (BitVec.ofInt 7 a)) (u32 v) = writeFrame a v := by
  rw [commandByte, setWidth_ofInt7 h]
  rfl

/-- The frame a logical read sends is its read frame (R71, R72). -/
theorem ofParts_read {a : Int} (h : inRegSpace a = true) :
    Frame.ofParts (commandByte .read (BitVec.ofInt 7 a)) 0 = readFrame a := by
  rw [commandByte, setWidth_ofInt7 h]
  simp [Frame.ofParts, readFrame]

/-- A write of a number outside `S32` to a named register is rejected for its value (R91). -/
theorem encodeFrame_reg_value_rejected (reg : Reg) {v : Int} (h : ¬ (-2 ^ 31 ≤ v ∧ v ≤ 2 ^ 31 - 1)) :
    encodeFrame .write reg.addr v = .error (.encoding .value v) :=
  (encodeFrame_error_iff ..).2 (.inr ⟨reg_inRegSpace reg, inS32_eq_false h, rfl⟩)

/-! ## Logical writes and reads -/

section Logical

variable {s : State}

/-- A logical write of accepted operands waits while the bus is held (R106, log 13). -/
theorem logicalWrite_held {latched : State} {a v : Int} {c : Nat} (ha : inRegSpace a = true) (hv : inS32 v = true)
    (hl : s.lock = some c) (pos : Nat) : s.logicalWrite a v pos latched = s := by
  unfold State.logicalWrite
  rw [encodeFrame_of_inRange _ ha hv]
  exact whenBusFree_held hl _

/-- A logical write the codec rejects raises, whatever the lock is (R109, R156, log 13). -/
theorem logicalWrite_rejected {latched : State} {a v : Int} {field : EncodingField} {got : Int}
    (h : encodeFrame .write a v = .error (.encoding field got)) (pos : Nat) :
    s.logicalWrite a v pos latched =
      latched.afterResponse (Response.bad .eEncoding (some (.encoding field got)) latched.ax.flags) := by
  unfold State.logicalWrite
  rw [h]
  exact raise_encoding ..

/-- A logical read outside the register space raises, whatever the lock is (R110, R156, log 13). -/
theorem readExchange_rejected {a : Int} (h : ¬ (0 ≤ a ∧ a ≤ 0x7F)) (pos : Nat) :
    s.readExchange a pos =
      s.afterResponse (Response.bad .eEncoding (some (.encoding .address a)) s.ax.flags) := by
  unfold State.readExchange
  rw [(encodeFrame_error_iff ..).2 (.inl ⟨inRegSpace_eq_false h, rfl⟩)]
  exact raise_encoding ..

/-! ## The command shapes -/

/-- The first write of a write sequence, at acceptance. -/
theorem writeSequence_first {w : Int × Int} {ws : List (Int × Int)} (hupc : s.ax.upc = 0) :
    writeSequence (w :: ws) s = .next (s.logicalWrite w.1 w.2 1 s) := by
  simp [writeSequence, hupc]

/-- A write sequence responds after its last write (R111). -/
theorem writeSequence_done {ws : List (Int × Int)} (hupc : s.ax.upc = ws.length) :
    writeSequence ws s = .next (s.afterResponse (Response.good s.ax.flags)) := by
  simp only [writeSequence, hupc, List.getElem?_length, if_true]
  rfl

/-- The first step of a single write at acceptance, on a free bus, is one exchange of its write frame (R109). -/
theorem writeSequence_single_frame {a v : Int} {r : Frame} (ha : inRegSpace a = true)
    (hv : -2 ^ 31 ≤ v ∧ v ≤ 2 ^ 31 - 1) (hupc : s.ax.upc = 0) (hl : s.lock = none) (hr : s.answer = .frame r) :
    writeSequence [(a, v)] s = .next (s.afterFrame (writeFrame a v) r 1) := by
  rw [writeSequence_first hupc, logicalWrite_frame ha ((inS32_iff v).2 hv) hl hr, ofParts_write ha]

/-- A single write of rejected operands raises at acceptance (R156). -/
theorem writeSequence_single_rejected {a v : Int} {field : EncodingField} {got : Int} (hupc : s.ax.upc = 0)
    (h : encodeFrame .write a v = .error (.encoding field got)) :
    writeSequence [(a, v)] s =
      .next (s.afterResponse (Response.bad .eEncoding (some (.encoding field got)) s.ax.flags)) := by
  rw [writeSequence_first hupc, logicalWrite_rejected h]

/-- READ_REG, GET_POS and READ_ENC are the logical read of their address (R112, R143, R145). -/
theorem exec_eq_readSequence {i : Instr} {a : Int}
    (hi : i = .readReg a ∨ (i = .getPos ∧ a = 0x21) ∨ (i = .readEnc ∧ a = 0x39)) (s : State) :
    exec i s = readSequence a s := by
  rcases hi with rfl | ⟨rfl, rfl⟩ | ⟨rfl, rfl⟩ <;> rfl

/-- The two exchanges of a logical read at an accepted address, on a free bus (R110). -/
theorem readSequence_frame {a : Int} {r : Frame} {pos : Nat} (ha : inRegSpace a = true) (hupc : s.ax.upc = pos)
    (hpos : pos ≤ 1) (hl : s.lock = none) (hr : s.answer = .frame r) :
    readSequence a s = .next (s.afterFrame (readFrame a) r (pos + 1)) := by
  have hx : ∀ n, s.readExchange a n = s.afterFrame (readFrame a) r n := fun n => by
    rw [readExchange_frame ha hl hr, ofParts_read ha]
  obtain rfl | rfl : pos = 0 ∨ pos = 1 := by omega
  · simp only [readSequence, hupc, hx]
  · simp only [readSequence, hupc, hx]

/-- A logical read outside the register space raises at acceptance (R112, R156). -/
theorem readSequence_rejected {a : Int} (h : ¬ (0 ≤ a ∧ a ≤ 0x7F)) (hupc : s.ax.upc = 0) :
    readSequence a s =
      .next (s.afterResponse (Response.bad .eEncoding (some (.encoding .address a)) s.ax.flags)) := by
  simp only [readSequence, hupc, readExchange_rejected h]

/-- A logical read responds with the value of the response it holds (R112). -/
theorem readSequence_value {a : Int} {r : Frame} (hupc : s.ax.upc = 2) (hrx : s.ax.rx = some r) :
    readSequence a s = .next (s.afterResponse { Response.good s.ax.flags with
      value := some (s32 (r.b1 ++ r.b2 ++ r.b3 ++ r.b4)) }) := by
  simp only [readSequence, hupc, hrx]
  rfl

/-! ## Wire frames, and every instruction while the bus is held -/

/-- A wire frame on a free bus is one physical exchange (R106, log 3). -/
theorem exchangeFrame_frame {r : Frame} (hl : s.lock = none) (hr : s.answer = .frame r) (out : Frame) :
    exchangeFrame out s = .next (s.afterWireFrame out r) := by
  rw [exchangeFrame, whenBusFree_free hl, xchgKeeping_frame hr]

/-- A wire frame waits while the bus is held (R106, log 13). -/
theorem exchangeFrame_held {c : Nat} (hl : s.lock = some c) (out : Frame) : exchangeFrame out s = .next s := by
  rw [exchangeFrame, whenBusFree_held hl]

/-- Of the shapes of a step, those that exchange are excluded while the bus is held; the others leave the bus, its
inputs and the chip select alone. -/
theorem exec_held {i : Instr} {t : State} {c : Nat} (hl : s.lock = some c) (h : exec i s = .next t) :
    t.bus = s.bus ∧ t.lock = s.lock ∧ t.answers = s.answers ∧ t.ax.cs = s.ax.cs ∧ t.ax.flags = s.ax.flags := by
  rcases exec_cases h with ⟨-, rfl⟩ | ⟨a, r, ha, rfl, -⟩ | ⟨_, _, _, _, -, -, -, hfree, -⟩ |
    ⟨_, _, _, -, -, hfree, -⟩ | ⟨_, _, -, -, rfl⟩ | ⟨_, _, -, hfree, -⟩
  · exact ⟨rfl, rfl, rfl, rfl, rfl⟩
  · obtain ⟨-, -, -, -, hflags, -, -, hcs, -⟩ := ha.unchanged
    exact ⟨rfl, rfl, rfl, hcs, hflags⟩
  · simp [hl] at hfree
  · simp [hl] at hfree
  · exact ⟨rfl, rfl, rfl, rfl, rfl⟩
  · simp [hl] at hfree

/-- SETUP's first write waits while the bus is held, and nothing is latched (R106, log 13). -/
theorem execSetup_held {c : Nat} (hl : s.lock = some c) (hupc : s.ax.upc = 0) (speed at_ run hold : Rat) :
    execSetup speed at_ run hold s = .next s := by
  have hw : ∀ latched pos, s.logicalWrite Reg.gconf.addr 0 pos latched = s := fun _ pos =>
    logicalWrite_held (reg_inRegSpace .gconf) (by decide) hl pos
  simp [execSetup, setupWrites, hupc, hw]

/-! ## Runs and responses -/

/-- A listed answer is the answer to the next exchange (R107). -/
theorem answer_of_answers {ans : Answer} {rest : List Answer} (h : s.answers = ans :: rest) :
    s.answer = ans := by
  simp [State.answer, h]

/-- A controller step of a busy axis whose command goes on, and then the rest of the run. -/
theorem axisSteps_busy {t : State} {i : Instr} (hb : s.ax.busy = true) (hc : s.ax.cur = some i)
    (hx : exec i s = .next t) (n : Nat) : axisSteps (n + 1) s = axisSteps n t := by
  simp only [axisSteps, axisStep_busy hb hc, hx]

/-- An exchange of READ_REG on a free bus, answered by a frame, and then the rest of the run (R110, R112). -/
theorem axisSteps_readReg_frame {a : Int} {r : Frame} {rest : List Answer} {pos : Nat} (ha : inRegSpace a = true)
    (hb : s.ax.busy = true) (hc : s.ax.cur = some (.readReg a)) (hupc : s.ax.upc = pos) (hpos : pos ≤ 1)
    (hl : s.lock = none) (hans : s.answers = .frame r :: rest) (n : Nat) :
    axisSteps (n + 1) s = axisSteps n (s.afterFrame (readFrame a) r (pos + 1)) :=
  axisSteps_busy hb hc (readSequence_frame ha hupc hpos hl (answer_of_answers hans)) n

/-- The last step of READ_REG (R112). -/
theorem axisSteps_readReg_value {a : Int} {r : Frame} (hb : s.ax.busy = true) (hc : s.ax.cur = some (.readReg a))
    (hupc : s.ax.upc = 2) (hrx : s.ax.rx = some r) :
    axisSteps 1 s = .next (s.afterResponse { Response.good s.ax.flags with
      value := some (s32 (r.b1 ++ r.b2 ++ r.b3 ++ r.b4)) }) :=
  axisSteps_busy hb hc (readSequence_value hupc hrx) 0

/-- `raise` written out (R159). -/
theorem raise_eq_afterResponse (e : Error) :
    s.raise e = s.afterResponse (Response.bad e.status e.info s.ax.flags) := rfl

end Logical

/-! ## The obligations -/

/-- Settles O18: a wire frame waits (`exchangeFrame_held`), the shapes of a step that exchange are excluded
(`exec_held`), and SETUP's first write waits. -/
theorem heldLockMakesExchangesWait : Obligations.HeldLockMakesExchangesWait := by
  intro s c hl
  refine ⟨fun i hi => ?wire, fun i t h => exec_held hl h, fun speed at_ run hold hupc => execSetup_held hl hupc ..⟩
  case wire =>
    obtain ⟨out, hx⟩ := exec_wire hi
    rw [hx, exchangeFrame_held hl]

/-- Settles O19: both commands are a write sequence of one write. -/
theorem singleWriteCommandsComplete : Obligations.SingleWriteCommandsComplete := by
  intro s r
  refine ⟨?write, fun a v hupc => writeSequence_done hupc, ?setEnc, fun x hupc => writeSequence_done hupc⟩
  case write =>
    intro a v halo hahi hvlo hvhi hupc hl hr
    exact writeSequence_single_frame ((inRegSpace_iff a).2 ⟨halo, hahi⟩) ⟨hvlo, hvhi⟩ hupc hl hr
  case setEnc =>
    rintro x v rfl hvlo hvhi hupc hl hr
    exact writeSequence_single_frame (reg_inRegSpace .xEnc) ⟨hvlo, hvhi⟩ hupc hl hr

/-- Settles O20: the codec's error is raised in place of the first exchange. -/
theorem outOfRangeOperandsRaiseBeforeExchange : Obligations.OutOfRangeOperandsRaiseBeforeExchange := by
  intro s e got hupc
  refine ⟨fun a v h => writeSequence_single_rejected hupc h, fun a ha => readSequence_rejected ha hupc, ?moveAbs,
    ?setEnc⟩
  case moveAbs =>
    intro v b hv
    rw [exec, execMoveAbs, hupc]
    exact congrArg _ (logicalWrite_rejected (encodeFrame_reg_value_rejected .xtarget hv) 1)
  case setEnc =>
    exact fun x hx => writeSequence_single_rejected hupc (encodeFrame_reg_value_rejected .xEnc hx)

/-- Settles O22: each of the three commands is the logical read of its address. -/
theorem readCommandsExchangeTwiceAndRespond : Obligations.ReadCommandsExchangeTwiceAndRespond := by
  intro s i a halo hahi hi
  have ha := (inRegSpace_iff a).2 ⟨halo, hahi⟩
  rw [exec_eq_readSequence hi]
  exact ⟨fun r hl hr hupc => readSequence_frame ha hupc (by decide) hl hr,
    fun r hl hr hupc => readSequence_frame ha hupc (by decide) hl hr,
    fun r hupc hrx => readSequence_value hupc hrx⟩

/-- Settles O23: the three steps of the read sequence in a row; each exchange leaves READ_REG current, and the second
response is the one that is held. -/
theorem readRegRunReturnsSecondResponse : Obligations.ReadRegRunReturnsSecondResponse := by
  intro s a r1 r2 rest halo hahi hl hb hc hupc hans
  have ha := (inRegSpace_iff a).2 ⟨halo, hahi⟩
  have hans1 : (s.afterFrame (readFrame a) r1 1).answers = .frame r2 :: rest := congrArg List.tail hans
  have run := calc axisSteps 3 s
    _ = axisSteps 2 (s.afterFrame (readFrame a) r1 1) :=
      axisSteps_readReg_frame ha hb hc hupc (by decide) hl hans 2
    _ = axisSteps 1 ((s.afterFrame (readFrame a) r1 1).afterFrame (readFrame a) r2 2) :=
      axisSteps_readReg_frame (s := s.afterFrame (readFrame a) r1 1) (pos := 1) ha hb hc rfl (by decide) rfl hans1 1
    _ = .next _ :=
      axisSteps_readReg_value (s := (s.afterFrame (readFrame a) r1 1).afterFrame (readFrame a) r2 2) hb hc rfl rfl
  exact ⟨_, run, rfl, rfl, rfl, congrArg List.tail hans1, rfl, rfl, rfl⟩

/-- Settles O14: the command's one step responds or raises as `flags` is set or not. -/
theorem getFlagsReportsOrRaises : Obligations.GetFlagsReportsOrRaises := by
  intro s hupc
  rw [exec, execGetFlags, oneStep_of_upc_zero _ hupc]
  constructor
  · intro b hf
    simp only [hf, respond_eq_afterResponse, id]
  · intro hf
    simp only [hf, raise_eq_afterResponse, Error.status, Error.info]

/-- Settles O17: every row is `exchangeFrame` of its frame; the command byte of a generic read frame is its address. -/
theorem wireFramesAreExchanged : Obligations.WireFramesAreExchanged := by
  intro s r d a hl hr
  have row := fun out => exchangeFrame_frame hl hr out
  have generic : commandByte .read a = a.setWidth 8 := BitVec.zero_or
  refine ⟨?read, row _, row _, row _, row _, row _, row _, row _, row _, row _, row _, row _, row _, row _, row _,
    row _, row _, row _, row _⟩
  case read => rw [exec, execFrameRead, generic, row]

end Sys2Proof.Machine
end

section
/-!
PROOFS. Scaling: rounding as bounds on the rounded number, and what the current codes, the current word and the motion values
are under the normative parameters (R121 to R125).
-/

namespace Sys2Proof.Machine

/-! ## Rounding -/

/-- Half-up rounding as the library's floor (R121). -/
theorem roundHalfUp_eq_floor (q : Rat) : roundHalfUp q = ⌊q + 1 / 2⌋ := rfl

/-- Half-up rounding gives the one integer at most half below the number and less than half above it (R121). -/
theorem roundHalfUp_eq_iff (q : Rat) (n : Int) :
    roundHalfUp q = n ↔ (n : Rat) - 1 / 2 ≤ q ∧ q < (n : Rat) + 1 / 2 := by
  rw [roundHalfUp_eq_floor, Int.floor_eq_iff]
  constructor <;> rintro ⟨hlo, hhi⟩ <;> constructor <;> linarith

/-- A number is rounded to at least `n` from half below `n` on (R121). -/
theorem le_roundHalfUp_iff (q : Rat) (n : Int) : n ≤ roundHalfUp q ↔ (n : Rat) - 1 / 2 ≤ q := by
  rw [roundHalfUp_eq_floor, Int.le_floor, sub_le_iff_le_add]

/-- The crosscheck rounding gives an integer at most half away, the even one of two (R121). -/
theorem roundHalfEven_nearest (q : Rat) :
    (roundHalfEven q : Rat) - 1 / 2 ≤ q ∧ q ≤ (roundHalfEven q : Rat) + 1 / 2 ∧
      (q = (roundHalfEven q : Rat) + 1 / 2 ∨ q = (roundHalfEven q : Rat) - 1 / 2 → roundHalfEven q % 2 = 0) := by
  have hlo : (q.floor : Rat) ≤ q := Int.floor_le q
  have hhi : q < (q.floor : Rat) + 1 := Int.lt_floor_add_one q
  unfold roundHalfEven
  dsimp only
  generalize q.floor = n at hlo hhi
  split_ifs with hbelow habove heven
  · refine ⟨by linarith, by linarith, ?noTieBelow⟩
    case noTieBelow => rintro (h | h) <;> exfalso <;> linarith
  · push_cast
    refine ⟨by linarith, by linarith, ?noTieAbove⟩
    case noTieAbove => rintro (h | h) <;> exfalso <;> linarith
  · exact ⟨by linarith, by linarith, fun _ => heven⟩
  · push_cast
    exact ⟨by linarith, by linarith, fun _ => by omega⟩

theorem rnd_of_halfUp {p : Params} (h : p.round = .halfUp) (q : Rat) : rnd p q = roundHalfUp q := by
  simp only [rnd, h]

theorem rnd_of_halfEven {p : Params} (h : p.round = .halfEven) (q : Rat) : rnd p q = roundHalfEven q := by
  simp only [rnd, h]

theorem num_of_exact {p : Params} (h : p.numerics = .exact) (q : Rat) : num p q = q := by
  simp only [num, h]

/-- Settles O24: each setting by the bounds on its rounding. -/
theorem roundingFollowsPRound : Obligations.RoundingFollowsPRound := by
  intro p q
  constructor
  · intro h
    rw [rnd_of_halfUp h]
    exact ⟨rfl, roundHalfUp_eq_iff q⟩
  · intro h
    rw [rnd_of_halfEven h]
    exact roundHalfEven_nearest q

/-! ## The current codes and the current word -/

/-- The current code with exact arithmetic: a hundredth of the current, rounded and clamped (R122). -/
theorem ccode_of_exact {p : Params} (h : p.numerics = .exact) (ma : Rat) :
    ccode p ma = clamp (rnd p (ma / 100)) 1 31 := by
  have hscale : ma * 31 / 3100 = ma / 100 := by ring
  simp only [ccode, num_of_exact h, hscale]

/-- Settles O25: `clamp` keeps every code in range, and half-up rounding reaches 2 at 150 mA and 31 at 3050 mA. -/
theorem currentCodeIsClamped : Obligations.CurrentCodeIsClamped := by
  refine ⟨ccode_range, fun p ma h => ?_⟩
  rw [ccode_of_exact h, clamp]
  refine ⟨fun _ => by omega, fun _ => by omega, fun _ _ => by omega, fun hround => ?thresholds⟩
  case thresholds =>
    rw [rnd_of_halfUp hround]
    have h2 := le_roundHalfUp_iff (ma / 100) 2
    have h31 := le_roundHalfUp_iff (ma / 100) 31
    push_cast at h2 h31
    constructor <;> intro hma
    · have : ¬ 2 ≤ roundHalfUp (ma / 100) := fun hle => by linarith [h2.1 hle]
      omega
    · have : 31 ≤ roundHalfUp (ma / 100) := h31.2 (by linarith)
      omega

/-- The current word's fields are disjoint, so their OR is their sum (R123). -/
theorem iholdIrun_eq_sum {run hold : Int} (hrun : 0 ≤ run ∧ run ≤ 31) (hhold : 0 ≤ hold ∧ hold ≤ 31) :
    iholdIrun run hold = 0x070000 + 256 * run + hold := by
  obtain ⟨r, rfl⟩ := Int.eq_ofNat_of_zero_le hrun.1
  obtain ⟨h, rfl⟩ := Int.eq_ofNat_of_zero_le hhold.1
  have hr : r < 2 ^ 8 := by omega
  have hh : h < 2 ^ 8 := by omega
  have hdelay : 0x070000 = 7 <<< 8 <<< 8 := rfl
  have hfields : 0x070000 ||| r <<< 8 ||| h = (7 <<< 8 + r) <<< 8 + h := by
    rw [hdelay, ← Nat.shiftLeft_or_distrib, ← Nat.shiftLeft_add_eq_or_of_lt hr, ← Nat.shiftLeft_add_eq_or_of_lt hh]
  rw [iholdIrun, Int.toNat_natCast, Int.toNat_natCast, hfields, Nat.shiftLeft_eq, Nat.shiftLeft_eq]
  omega

/-- Settles O26: with both codes in range the sum is. -/
theorem currentWordPacksBothCodes : Obligations.CurrentWordPacksBothCodes := by
  intro run hold hrun1 hrun31 hhold1 hhold31
  rw [iholdIrun_eq_sum ⟨by omega, hrun31⟩ ⟨by omega, hhold31⟩]
  exact ⟨rfl, by omega, by omega⟩

/-- Settles O27: both values are half-up roundings of their formula, `vel` first past `S32` at 1536001465. -/
theorem motionValuesFollowTheFormulas : Obligations.MotionValuesFollowTheFormulas := by
  intro p speed t hexact hround
  have haccel : accel p speed t = roundHalfUp (speed / t * (1527 / 100000)) := by
    simp only [accel, num_of_exact hexact, rnd_of_halfUp hround]
  have hvel : vel p speed = roundHalfUp (speed * (13981 / 10000)) := by
    simp only [vel, num_of_exact hexact, rnd_of_halfUp hround]
  obtain ⟨hlo, hhi⟩ := (roundHalfUp_eq_iff _ _).1 hvel.symm
  have le_vel : ∀ n : Int, n ≤ vel p speed ↔ (n : Rat) - 1 / 2 ≤ speed * (13981 / 10000) := fun n => by
    rw [hvel, le_roundHalfUp_iff]
  refine ⟨fun _ => (roundHalfUp_eq_iff _ _).1 haccel.symm, hlo, hhi, fun h => ?past, fun h0 h => ⟨?nonneg, ?within⟩⟩
  case past => rw [le_vel]; push_cast; linarith
  case nonneg => rw [le_vel]; push_cast; linarith
  case within =>
    by_contra hgt
    have := (le_vel (2 ^ 31)).1 (by omega)
    push_cast at this
    linarith

end Sys2Proof.Machine
end

section
/-!
PROOFS. SETUP: its fourteen writes as one exchange each, with what the step latches before it, what a transport error and a
value out of range leave of them, and the run of the whole command (R126 to R130, R161, R164).
-/

namespace Sys2Proof.Machine

/-! ## The frames and their conditions -/

/-- The frames of SETUP's writes, in bus order (R127). -/
def setupFrames (p : Params) (c : SetupResult) : List Frame :=
  [⟨0x80, 0, 0, 0, 0⟩, Frame.ofParts 0xEC p.chopconf, Frame.ofParts 0x90 (u32 (iholdIrun c.run c.hold)),
    ⟨0x91, 0, 0, 0, 0x0A⟩, ⟨0xF0, 0, 0, 0, 0⟩, Frame.ofParts 0xA4 (u32 c.a), Frame.ofParts 0xA5 (u32 c.v),
    Frame.ofParts 0xA6 (u32 c.a), Frame.ofParts 0xA7 (u32 c.v), Frame.ofParts 0xAA (u32 c.a), ⟨0xAB, 0, 0, 0, 0x0A⟩,
    ⟨0xA0, 0, 0, 0, 0⟩, ⟨0xA1, 0, 0, 0, 0⟩, ⟨0xAD, 0, 0, 0, 0⟩]

/-- They are the write frames of the sequence's registers and values. -/
theorem setupFrames_eq_map (p : Params) (c : SetupResult) :
    setupFrames p c = (setupWrites p c).map fun w => writeFrame w.1.addr w.2 := by
  have hchop : writeFrame Reg.chopconf.addr (s32 p.chopconf) = Frame.ofParts 0xEC p.chopconf := by
    rw [writeFrame, u32_s32]
    rfl
  simp only [setupWrites, List.map, hchop]
  rfl

/-- What the write at a position asks of the computed values: a nonzero time before the motion values are computed (R161),
and the value in `S32` (R91, R156). -/
def SetupWritable (p : Params) (t : Rat) (c : SetupResult) (pos : Nat) : Prop :=
  match pos with
  | 5 => num p t ≠ 0 ∧ -2 ^ 31 ≤ c.a ∧ c.a ≤ 2 ^ 31 - 1
  | 7 | 9 => -2 ^ 31 ≤ c.a ∧ c.a ≤ 2 ^ 31 - 1
  | 6 | 8 => -2 ^ 31 ≤ c.v ∧ c.v ≤ 2 ^ 31 - 1
  | _ => True

/-- `s` with what SETUP's step at a position latches before its write (R128). -/
def State.setupLatched (s : State) (c : SetupResult) (pos : Nat) : State := { s with ax := setupLatch c pos s.ax }

/-- The latch leaves the command in progress. -/
theorem setupLatch_busy_cur (c : SetupResult) (n : Nat) (a : Axis) :
    (setupLatch c n a).busy = a.busy ∧ (setupLatch c n a).cur = a.cur := by
  unfold setupLatch; split <;> exact ⟨rfl, rfl⟩

/-- The current word of a SETUP is in `S32` (R123). -/
theorem inS32_iholdIrun_ccode (p : Params) (irun ihold : Rat) :
    inS32 (iholdIrun (ccode p irun) (ccode p ihold)) = true := by
  obtain ⟨hrlo, hrhi⟩ := ccode_range p irun
  obtain ⟨hhlo, hhhi⟩ := ccode_range p ihold
  obtain ⟨-, hlo, hhi⟩ := currentWordPacksBothCodes _ _ hrlo hrhi hhlo hhhi
  exact (inS32_iff _).2 ⟨by omega, by omega⟩

section Writes

variable {s : State} {speed t irun ihold : Rat} {c : SetupResult}

/-- A value SETUP writes is in `S32` where the position's condition holds. -/
theorem setupWrites_inS32 {p : Params} {w : Reg × Int} {pos : Nat} (hc : setupResult p speed t irun ihold = c)
    (hw : (setupWrites p c)[pos]? = some w) (hok : SetupWritable p t c pos) : inS32 w.2 = true := by
  subst hc
  match pos, hw, hok with
  | 1, rfl, _ => exact s32_mem _
  | 2, rfl, _ => exact inS32_iholdIrun_ccode ..
  | 5, rfl, hok => exact (inS32_iff _).2 hok.2
  | 6, rfl, hok | 7, rfl, hok | 8, rfl, hok | 9, rfl, hok => exact (inS32_iff _).2 hok
  | 0, rfl, _ | 3, rfl, _ | 4, rfl, _ | 10, rfl, _ | 11, rfl, _ | 12, rfl, _ | 13, rfl, _ => rfl
  | _ + 14, hw, _ => cases hw

/-! ## One write -/

/-- A write of SETUP on a free bus is the exchange of its frame, in the state that has latched what the step latches. -/
theorem exec_setup_xchg {pos : Nat} {out : Frame} (hc : setupResult s.par speed t irun ihold = c) (hl : s.lock = none)
    (hupc : s.ax.upc = pos) (hout : (setupFrames s.par c)[pos]? = some out) (hok : SetupWritable s.par t c pos) :
    exec (.setup speed t irun ihold) s = .next ((s.setupLatched c pos).xchg out (pos + 1)) := by
  subst hupc
  rw [setupFrames_eq_map, List.getElem?_map, Option.map_eq_some_iff] at hout
  obtain ⟨w, hw, rfl⟩ := hout
  have htime : ¬ (s.ax.upc = 5 ∧ num s.par t = 0) := by
    rintro ⟨h5, hzero⟩
    rw [h5] at hok
    exact hok.1 hzero
  have hv : inS32 w.2 = true := setupWrites_inS32 hc hw hok
  have haddr := reg_inRegSpace w.1
  simp only [exec, execSetup, hc, hw, if_neg htime, State.logicalWrite, encodeFrame_of_inRange _ haddr hv,
    whenBusFree_free hl, ofParts_write haddr, State.setupLatched]

/-- A write of SETUP the transport answers with a frame (R127, R128). -/
theorem exec_setup_frame {r : Frame} (hc : setupResult s.par speed t irun ihold = c) (hl : s.lock = none)
    (hr : s.answer = .frame r) {pos : Nat} {out : Frame} (hupc : s.ax.upc = pos)
    (hout : (setupFrames s.par c)[pos]? = some out) (hok : SetupWritable s.par t c pos) :
    exec (.setup speed t irun ihold) s = .next ((s.setupLatched c pos).afterFrame out r (pos + 1)) := by
  rw [exec_setup_xchg hc hl hupc hout hok, xchg_frame (s := s.setupLatched c pos) hr]

/-- A write of SETUP that ends in a transport error keeps what the step latched before it (R130, R157). -/
theorem exec_setup_transportError {e : TransportError} (hc : setupResult s.par speed t irun ihold = c)
    (hl : s.lock = none) (hr : s.answer = .error e) {pos : Nat} {out : Frame} (hupc : s.ax.upc = pos)
    (hout : (setupFrames s.par c)[pos]? = some out) (hok : SetupWritable s.par t c pos) :
    exec (.setup speed t irun ihold) s = .next ((s.setupLatched c pos).afterTransportError out e) := by
  rw [exec_setup_xchg hc hl hupc hout hok, xchg_error (s := s.setupLatched c pos) hr]

/-- A value out of range is raised in place of its write, with what the step latched before it (R128, R156, R164). -/
theorem exec_setup_rejected {pos : Nat} {reg : Reg} {v : Int} (hc : setupResult s.par speed t irun ihold = c)
    (hupc : s.ax.upc = pos) (hw : (setupWrites s.par c)[pos]? = some (reg, v)) (htime : pos = 5 → num s.par t ≠ 0)
    (hv : ¬ (-2 ^ 31 ≤ v ∧ v ≤ 2 ^ 31 - 1)) :
    exec (.setup speed t irun ihold) s = .next ((s.setupLatched c pos).afterResponse
      (Response.bad .eEncoding (some (.encoding .value v)) s.ax.flags)) := by
  subst hupc
  have htime : ¬ (s.ax.upc = 5 ∧ num s.par t = 0) := fun ⟨h5, hzero⟩ => htime h5 hzero
  simp only [exec, execSetup, hc, hw, if_neg htime, logicalWrite_rejected (encodeFrame_reg_value_rejected reg hv),
    setupLatch_flags, State.setupLatched]

end Writes

/-! ## The obligations about one step -/

/-- Settles O28: each position is an answered write. -/
theorem setupWritesInOrder : Obligations.SetupWritesInOrder := by
  rintro s speed t irun ihold r _ _ _ _ _ hl hr rfl rfl rfl rfl rfl
  have write := @exec_setup_frame s speed t irun ihold _ r rfl hl hr
  exact ⟨(write · rfl trivial), (write · rfl trivial), (write · rfl trivial), (write · rfl trivial),
    (write · rfl trivial), fun h ht hlo hhi => write h rfl ⟨ht, hlo, hhi⟩, fun h hlo hhi => write h rfl ⟨hlo, hhi⟩,
    fun h hlo hhi => write h rfl ⟨hlo, hhi⟩, fun h hlo hhi => write h rfl ⟨hlo, hhi⟩,
    fun h hlo hhi => write h rfl ⟨hlo, hhi⟩, (write · rfl trivial), (write · rfl trivial), (write · rfl trivial),
    (write · rfl trivial)⟩

/-- Settles O31: each position is a write that ends in the transport error. -/
theorem setupAbortKeepsWhatIsLatched : Obligations.SetupAbortKeepsWhatIsLatched := by
  rintro s speed t irun ihold e _ _ _ _ _ rfl hl hr rfl rfl rfl rfl
  have abort := @exec_setup_transportError s speed t irun ihold _ e rfl hl hr
  exact ⟨(abort · rfl trivial), (abort · rfl trivial), (abort · rfl trivial), (abort · rfl trivial),
    (abort · rfl trivial), fun h ht hlo hhi => abort h rfl ⟨ht, hlo, hhi⟩, fun h hlo hhi => abort h rfl ⟨hlo, hhi⟩,
    fun h hlo hhi => abort h rfl ⟨hlo, hhi⟩, fun h hlo hhi => abort h rfl ⟨hlo, hhi⟩,
    fun h hlo hhi => abort h rfl ⟨hlo, hhi⟩, (abort · rfl trivial), (abort · rfl trivial), (abort · rfl trivial),
    (abort · rfl trivial)⟩

/-- Settles O30: a zero time is raised before the motion values are computed, a value out of range at its write. -/
theorem setupRaisesAtTheFailingStep : Obligations.SetupRaisesAtTheFailingStep := by
  rintro s speed t irun ihold _ _ _ rfl rfl rfl
  refine ⟨fun h5 hzero => ?zeroTime, fun h5 ht ha => exec_setup_rejected rfl h5 rfl (fun _ => ht) ha,
    fun h6 hv => exec_setup_rejected rfl h6 rfl (by omega) hv⟩
  case zeroTime =>
    simp only [exec, execSetup, setupWrites, h5, hzero, raise_eq_afterResponse]
    rfl

/-- Settles O29: no write is left at position 14. -/
theorem setupCompletesConfigured : Obligations.SetupCompletesConfigured := by
  intro s speed t irun ihold h14
  simp only [exec, execSetup, setupWrites, h14]
  rfl

/-! ## The whole command -/

/-- SETUP, computing `c`, runs from `s` and has come to position `pos` in `u`: it is in progress on a free bus, the bus has
carried its first `pos` frames in whole exchanges since, `rest` are the answers left, and what the steps so far latch is
latched (R128). -/
structure SetupAt (s : State) (i : Instr) (c : SetupResult) (pos : Nat) (rest : List Answer) (u : State) : Prop where
  par : u.par = s.par
  busy : u.ax.busy = true
  cur : u.ax.cur = some i
  upc : u.ax.upc = pos
  lock : u.lock = none
  answers : u.answers = rest
  bus : ∃ es, u.bus = s.bus ++ es ∧ bracketed es = true ∧ sentFrames es = (setupFrames s.par c).take pos
  codes : 3 ≤ pos → u.ax.cfgRun = some c.run ∧ u.ax.cfgHold = some c.hold
  motion : 6 ≤ pos → u.ax.cfgA = some c.a ∧ u.ax.cfgV = some c.v

section Run

variable {s u : State} {speed t irun ihold : Rat} {c : SetupResult} {pos : Nat} {rest : List Answer}

/-- An answered write takes the command to its next position, with the answer's status byte in `flags` (R108). -/
theorem SetupAt.next {r : Frame} (hc : setupResult s.par speed t irun ihold = c)
    (h : SetupAt s (.setup speed t irun ihold) c pos (.frame r :: rest) u) (hpos : pos < 14)
    (hok : SetupWritable s.par t c pos) :
    ∃ u', (∀ n, axisSteps (n + 1) u = axisSteps n u') ∧ u'.ax.flags = some r.b0 ∧
      SetupAt s (.setup speed t irun ihold) c (pos + 1) rest u' := by
  obtain ⟨hpar, hbusy, hcur, hupc, hlock, hans, ⟨es, hbus, hwhole, hsent⟩, hcodes, hmotion⟩ := h
  obtain ⟨out, hout⟩ : ∃ out, (setupFrames s.par c)[pos]? = some out := ⟨_, List.getElem?_eq_getElem hpos⟩
  have hstep := axisSteps_busy hbusy hcur <|
    exec_setup_frame (hpar ▸ hc) hlock (answer_of_answers hans) hupc (hpar ▸ hout) (hpar ▸ hok)
  obtain ⟨hbusy', hcur'⟩ := setupLatch_busy_cur c pos u.ax
  refine ⟨_, hstep, rfl, hpar, hbusy'.trans hbusy, hcur'.trans hcur, rfl, rfl, congrArg List.tail hans, ?bus, ?codes,
    ?motion⟩
  case bus =>
    refine ⟨es ++ exchangeEvents (u.setupLatched c pos).ax.chip out (.frame r), ?_, ?_, ?_⟩
    · rw [← List.append_assoc, ← hbus]; rfl
    · rw [bracketed_append _ _ hwhole, bracketed_exchangeEvents]
    · rw [sentFrames_append, hsent, sentFrames_exchangeEvents, List.take_add_one, hout]; rfl
  case codes =>
    intro h3
    simp only [State.setupLatched, afterFrame_ax_cfgRun, afterFrame_ax_cfgHold, setupLatch_cfgRun, setupLatch_cfgHold]
    split
    · exact ⟨rfl, rfl⟩
    · exact hcodes (by omega)
  case motion =>
    intro h6
    simp only [State.setupLatched, afterFrame_ax_cfgA, afterFrame_ax_cfgV, setupLatch_cfgA, setupLatch_cfgV]
    split
    · exact ⟨rfl, rfl⟩
    · exact hmotion (by omega)

/-- Answered writes in a row, by induction on the answers. -/
theorem SetupAt.writes {rs : List Frame} (hc : setupResult s.par speed t irun ihold = c)
    (hok : ∀ pos, SetupWritable s.par t c pos)
    (h : SetupAt s (.setup speed t irun ihold) c pos (rs.map .frame ++ rest) u) (hpos : pos + rs.length ≤ 14) :
    ∃ u', (∀ n, axisSteps (n + rs.length) u = axisSteps n u') ∧
      SetupAt s (.setup speed t irun ihold) c (pos + rs.length) rest u' := by
  induction rs generalizing pos u with
  | nil => exact ⟨u, fun _ => rfl, h⟩
  | cons r rs ih =>
    rw [List.length_cons] at hpos ⊢
    obtain ⟨u', hstep, -, h'⟩ := h.next hc (by omega) (hok pos)
    obtain ⟨u'', hrun, h''⟩ := ih h' (by omega)
    refine ⟨u'', fun n => (hstep (n + rs.length)).trans (hrun n), ?_⟩
    rwa [Nat.add_right_comm] at h''

/-- The conditions of all positions together: a nonzero time and both motion values in `S32`. -/
theorem setupWritable_of_inRange {p : Params} (ht : num p t ≠ 0) (ha : -2 ^ 31 ≤ c.a ∧ c.a ≤ 2 ^ 31 - 1)
    (hv : -2 ^ 31 ≤ c.v ∧ c.v ≤ 2 ^ 31 - 1) (pos : Nat) : SetupWritable p t c pos := by
  unfold SetupWritable
  split
  · exact ⟨ht, ha⟩
  · exact ha
  · exact ha
  · exact hv
  · exact hv
  · trivial

end Run

/-- Settles O32: thirteen answered writes, the fourteenth, whose status byte stays in `flags`, and the step that responds. -/
theorem setupRunSendsTheFourteenFrames : Obligations.SetupRunSendsTheFourteenFrames := by
  rintro s speed t irun ihold rs last rest _ _ _ _ hl hbusy hcur hupc ht rfl rfl rfl rfl halo hahi hvlo hvhi hlen hans
  have hok := setupWritable_of_inRange (c := setupResult s.par speed t irun ihold) ht ⟨halo, hahi⟩ ⟨hvlo, hvhi⟩
  have start : SetupAt s (.setup speed t irun ihold) (setupResult s.par speed t irun ihold) 0
      (rs.map .frame ++ .frame last :: rest) s :=
    ⟨rfl, hbusy, hcur, hupc, hl, hans, ⟨[], (List.append_nil _).symm, rfl, rfl⟩, by omega, by omega⟩
  obtain ⟨u, hwrites, h13⟩ := start.writes rfl hok (by omega)
  rw [hlen] at hwrites h13
  obtain ⟨u', hlast, hflags, h14⟩ := h13.next rfl (by decide) (hok _)
  have hrespond := axisSteps_busy h14.busy h14.cur (setupCompletesConfigured u' speed t irun ihold h14.upc) 0
  rw [h14.par, hflags] at hrespond
  obtain ⟨es, hbus, hwhole, hsent⟩ := h14.bus
  obtain ⟨hrun, hhold⟩ := h14.codes (by decide)
  obtain ⟨haccel, hvel⟩ := h14.motion (by decide)
  exact ⟨_, es, (hwrites 2).trans ((hlast 1).trans hrespond), hbus, hwhole, hsent, h14.answers, h14.lock, rfl, rfl, rfl,
    hrun, hhold, haccel, hvel, hflags, rfl⟩

end Sys2Proof.Machine
end

section
/-!
PROOFS. Motion: SET_POS's two writes, the single steps of MOVE_ABS, and the runs of MOVE_ABS, by induction on the polls
(R135 to R144, R147, R186).
-/

namespace Sys2Proof.Machine

/-! ## SET_POS -/

/-- An accepted write of a write sequence, on a free bus, is one exchange of its write frame (R109). -/
theorem writeSequence_frame {s : State} {ws : List (Int × Int)} {a v : Int} {r : Frame} {pos : Nat}
    (hw : ws[pos]? = some (a, v)) (ha : inRegSpace a = true) (hv : inS32 v = true) (hupc : s.ax.upc = pos)
    (hl : s.lock = none) (hr : s.answer = .frame r) :
    writeSequence ws s = .next (s.afterFrame (writeFrame a v) r (pos + 1)) := by
  subst hupc
  simp only [writeSequence, hw, logicalWrite_frame ha hv hl hr, ofParts_write ha]

/-- Settles O21: the argument is no part of the write sequence, whose two write frames have data 0. -/
theorem setPosWritesZeroTwice : Obligations.SetPosWritesZeroTwice := by
  intro s x
  refine ⟨fun r hl hr hupc => ?xactual, fun r hl hr hupc => ?xtarget, fun hupc => writeSequence_done hupc⟩
  case xactual =>
    exact writeSequence_frame (a := Reg.xactual.addr) (v := 0) rfl (reg_inRegSpace .xactual) (by decide) hupc hl hr
  case xtarget =>
    exact writeSequence_frame (a := Reg.xtarget.addr) (v := 0) rfl (reg_inRegSpace .xtarget) (by decide) hupc hl hr

/-! ## The exchanges of MOVE_ABS -/

section Steps

variable {s : State} {target : Int} {b : Bool} {r : Frame}

/-- One exchange of the read of XACTUAL, on a free bus, answered by a frame (R110, R136). -/
theorem readExchange_xactual_frame (hl : s.lock = none) (hr : s.answer = .frame r) (pos : Nat) :
    s.readExchange Reg.xactual.addr pos = s.afterFrame ⟨0x21, 0, 0, 0, 0⟩ r pos :=
  readExchange_frame (reg_inRegSpace .xactual) hl hr pos

/-- The target write (R135). -/
theorem exec_moveAbs_target (hl : s.lock = none) (hr : s.answer = .frame r) (hupc : s.ax.upc = 0)
    (ht : inS32 target = true) :
    exec (.moveAbs target b) s = .next (s.afterFrame (Frame.ofParts 0xAD (u32 target)) r 1) := by
  simp only [exec, execMoveAbs, hupc, logicalWrite_frame (reg_inRegSpace .xtarget) ht hl hr]
  rfl

/-- The first exchange of the priming read (R136). -/
theorem exec_moveAbs_prime1 (hl : s.lock = none) (hr : s.answer = .frame r) (hupc : s.ax.upc = 1) :
    exec (.moveAbs target b) s = .next (s.afterFrame ⟨0x21, 0, 0, 0, 0⟩ r 2) := by
  simp only [exec, execMoveAbs, hupc, readExchange_xactual_frame hl hr]

/-- The second exchange of the priming read, after which a blocking move polls (R136, R139). -/
theorem exec_moveAbs_prime2 (hl : s.lock = none) (hr : s.answer = .frame r) (hupc : s.ax.upc = 2) :
    exec (.moveAbs target b) s = .next (s.afterFrame ⟨0x21, 0, 0, 0, 0⟩ r (if b then 4 else 3)) := by
  simp only [exec, execMoveAbs, hupc, readExchange_xactual_frame hl hr]

/-- A non-blocking move responds after the priming read (R139). -/
theorem exec_moveAbs_issued (hupc : s.ax.upc = 3) :
    exec (.moveAbs target b) s =
      .next (s.afterResponse { Response.good s.ax.flags with outcome := some .issued }) := by
  simp only [exec, execMoveAbs, hupc, respond_eq_afterResponse]

/-- At the poll limit the move responds in place of a poll (R141). -/
theorem exec_moveAbs_pollTimeout (hupc : s.ax.upc = 4) (hlimit : s.par.pollLimit = some s.ax.npoll) :
    exec (.moveAbs target b) s =
      .next (s.afterResponse { Response.good s.ax.flags with outcome := some .pollTimeout }) := by
  simp only [exec, execMoveAbs, hupc, movePoll, Option.mem_def, if_pos hlimit, respond_eq_afterResponse]

/-- The first exchange of a poll, below the poll limit (R136, R141). -/
theorem exec_moveAbs_poll1 (hl : s.lock = none) (hr : s.answer = .frame r) (hupc : s.ax.upc = 4)
    (hlimit : s.par.pollLimit ≠ some s.ax.npoll) :
    exec (.moveAbs target b) s = .next (s.afterFrame ⟨0x21, 0, 0, 0, 0⟩ r 5) := by
  simp only [exec, execMoveAbs, hupc, movePoll, Option.mem_def, if_neg hlimit, readExchange_xactual_frame hl hr]

/-- The second exchange of a poll (R136). -/
theorem exec_moveAbs_poll2 (hl : s.lock = none) (hr : s.answer = .frame r) (hupc : s.ax.upc = 5) :
    exec (.moveAbs target b) s = .next (s.afterFrame ⟨0x21, 0, 0, 0, 0⟩ r 6) := by
  simp only [exec, execMoveAbs, hupc, readExchange_xactual_frame hl hr]

/-! ## The check after a poll -/

/-- How a poll ends, by the bits of its status byte: DRIVER_ERROR is bit 1, POSITION_REACHED bit 5 (R74, R138). -/
theorem pollOutcome_eq (st : Byte) :
    pollOutcome st = if st.toNat.testBit 1 then some .driverError
      else if st.toNat.testBit 5 then some .reached else none := rfl

theorem pollOutcome_eq_none {st : Byte} (h1 : st.toNat.testBit 1 = false) (h5 : st.toNat.testBit 5 = false) :
    pollOutcome st = none := by
  simp [pollOutcome_eq, h1, h5]

theorem pollOutcome_eq_some {st : Byte} (h : st.toNat.testBit 1 = true ∨ st.toNat.testBit 5 = true) :
    pollOutcome st = some (if st.toNat.testBit 1 then .driverError else .reached) := by
  rw [pollOutcome_eq]
  cases h1 : st.toNat.testBit 1 with
  | true => rfl
  | false => simp [h.resolve_left (by simp [h1])]

/-- A terminal poll is counted and ends the move with status OK (R137, R138). -/
theorem exec_moveAbs_terminal {st : Byte} {o : MoveOutcome} (hupc : s.ax.upc = 6) (hst : s.ax.flags = some st)
    (ho : pollOutcome st = some o) :
    exec (.moveAbs target b) s =
      .next ({ s with ax := { s.ax with npoll := s.ax.npoll + 1 } }.afterResponse
        { Response.good (some st) with outcome := some o }) := by
  simp only [exec, execMoveAbs, hupc, hst, moveCheck, ho, respond_eq_afterResponse]

/-- A poll without a terminal condition is counted, and the move goes back to the loop head (R137, R140). -/
theorem exec_moveAbs_wait {st : Byte} (hupc : s.ax.upc = 6) (hst : s.ax.flags = some st)
    (ho : pollOutcome st = none) :
    exec (.moveAbs target b) s = .next { s with ax := { s.ax with npoll := s.ax.npoll + 1, upc := 4 } } := by
  simp only [exec, execMoveAbs, hupc, hst, moveCheck, ho]

end Steps

/-! ## The obligations about one step -/

/-- Settles O33: one lemma per position before the check. -/
theorem moveAbsSequence : Obligations.MoveAbsSequence := by
  intro s target b
  refine ⟨fun r hl hr => ?exchanges, exec_moveAbs_issued, exec_moveAbs_pollTimeout⟩
  case exchanges =>
    exact ⟨fun hupc hlo hhi => exec_moveAbs_target hl hr hupc ((inS32_iff _).2 ⟨hlo, hhi⟩),
      exec_moveAbs_prime1 hl hr, exec_moveAbs_prime2 hl hr, exec_moveAbs_prime2 hl hr, exec_moveAbs_poll1 hl hr,
      exec_moveAbs_poll2 hl hr⟩

/-- Settles O36: the three cases of `pollOutcome`. -/
theorem pollCheckEndsOrWaits : Obligations.PollCheckEndsOrWaits := by
  intro s target b st hupc hst
  refine ⟨fun h1 => exec_moveAbs_terminal hupc hst ?driverError,
    fun h1 h5 => exec_moveAbs_terminal hupc hst ?reached,
    fun h1 h5 => exec_moveAbs_wait hupc hst (pollOutcome_eq_none h1 h5)⟩
  case driverError => rw [pollOutcome_eq_some (.inl h1), if_pos h1]
  case reached => rw [pollOutcome_eq_some (.inr h5), h1]; rfl

/-! ## A move in progress -/

/-- From `s` to `u` the bus has carried whole exchanges of these frames, in order. -/
def State.SentSince (s u : State) (frames : List Frame) : Prop :=
  ∃ es, u.bus = s.bus ++ es ∧ bracketed es = true ∧ sentFrames es = frames

theorem State.SentSince.refl (s : State) : s.SentSince s [] := ⟨[], (List.append_nil _).symm, rfl, rfl⟩

/-- An answered exchange adds its frame. -/
theorem State.SentSince.afterFrame {s u : State} {frames : List Frame} (h : s.SentSince u frames) (out r : Frame)
    (pos : Nat) : s.SentSince (u.afterFrame out r pos) (frames ++ [out]) := by
  obtain ⟨es, hbus, hwhole, hsent⟩ := h
  refine ⟨es ++ exchangeEvents u.ax.chip out (.frame r), ?_, ?_, ?_⟩
  · rw [afterFrame_bus, hbus, List.append_assoc]
  · rw [bracketed_append _ _ hwhole, bracketed_exchangeEvents]
  · rw [sentFrames_append, hsent, sentFrames_exchangeEvents]

/-- The frames of a move that has written its target and sent `reads` read frames of XACTUAL (R135, R136). -/
def moveFrames (target : Int) (reads : Nat) : List Frame :=
  Frame.ofParts 0xAD (u32 target) :: List.replicate reads ⟨0x21, 0, 0, 0, 0⟩

theorem moveFrames_succ (target : Int) (reads : Nat) :
    moveFrames target (reads + 1) = moveFrames target reads ++ [⟨0x21, 0, 0, 0, 0⟩] := by
  rw [moveFrames, List.replicate_succ']
  rfl

/-- A MOVE_ABS accepted in `s` (R30). -/
structure MoveAccepted (s : State) (target : Int) (b : Bool) : Prop where
  busy : s.ax.busy = true
  cur : s.ax.cur = some (.moveAbs target b)
  upc : s.ax.upc = 0
  lock : s.lock = none
  in_range : inS32 target = true

/-- The MOVE_ABS accepted in `s` has come to position `pos` in `u`: its steps have been the target write, `reads`
exchanges of reads and `polls` checks; `last` is the last status byte, `rest` are the answers left. -/
structure MoveAt (s : State) (target : Int) (b : Bool) (reads polls pos : Nat) (last : Byte) (rest : List Answer)
    (u : State) : Prop where
  run : axisSteps (1 + reads + polls) s = .next u
  par : u.par = s.par
  busy : u.ax.busy = true
  cur : u.ax.cur = some (.moveAbs target b)
  upc : u.ax.upc = pos
  npoll : u.ax.npoll = s.ax.npoll + polls
  flags : u.ax.flags = some last
  resp : u.ax.resp = s.ax.resp
  lock : u.lock = none
  answers : u.answers = rest
  sent : s.SentSince u (moveFrames target reads)

section Run

variable {s u v : State} {target : Int} {b : Bool} {reads polls pos : Nat} {last : Byte} {rest : List Answer}

/-- The target write of an accepted move. -/
theorem MoveAccepted.write {w : Frame} (h : MoveAccepted s target b) (hans : s.answers = .frame w :: rest) :
    MoveAt s target b 0 0 1 w.b0 rest (s.afterFrame (Frame.ofParts 0xAD (u32 target)) w 1) where
  run := axisSteps_busy h.busy h.cur (exec_moveAbs_target h.lock (answer_of_answers hans) h.upc h.in_range) 0
  par := rfl
  busy := h.busy
  cur := h.cur
  upc := rfl
  npoll := rfl
  flags := rfl
  resp := rfl
  lock := rfl
  answers := congrArg List.tail hans
  sent := (State.SentSince.refl s).afterFrame ..

/-- The next step of the move. -/
theorem MoveAt.step (h : MoveAt s target b reads polls pos last rest u)
    (hx : exec (.moveAbs target b) u = .next v) : axisSteps (1 + reads + polls + 1) s = .next v :=
  (axisSteps_add h.run 1).trans (axisSteps_busy h.busy h.cur hx 0)

/-- A step that is an exchange of the read of XACTUAL. -/
theorem MoveAt.read {r : Frame} {pos' : Nat} (h : MoveAt s target b reads polls pos last (.frame r :: rest) u)
    (hx : exec (.moveAbs target b) u = .next (u.afterFrame ⟨0x21, 0, 0, 0, 0⟩ r pos')) :
    MoveAt s target b (reads + 1) polls pos' r.b0 rest (u.afterFrame ⟨0x21, 0, 0, 0, 0⟩ r pos') where
  run := by
    rw [← h.step hx]
    congr 1
    omega
  par := h.par
  busy := h.busy
  cur := h.cur
  upc := rfl
  npoll := h.npoll
  flags := rfl
  resp := h.resp
  lock := rfl
  answers := congrArg List.tail h.answers
  sent := moveFrames_succ target reads ▸ h.sent.afterFrame ..

/-- The target write and the priming read (R135, R136). -/
theorem MoveAccepted.primed {w p1 p2 : Frame} (h : MoveAccepted s target b)
    (hans : s.answers = .frame w :: .frame p1 :: .frame p2 :: rest) :
    ∃ u, MoveAt s target b 2 0 (if b then 4 else 3) p2.b0 rest u := by
  have written := h.write hans
  have primed1 := written.read (exec_moveAbs_prime1 written.lock (answer_of_answers written.answers) written.upc)
  have primed2 := primed1.read (exec_moveAbs_prime2 primed1.lock (answer_of_answers primed1.answers) primed1.upc)
  exact ⟨_, primed2⟩

/-- The two exchanges of a poll, below the poll limit (R136, R141). -/
theorem MoveAt.poll {qa qb : Frame} (h : MoveAt s target b reads polls 4 last (.frame qa :: .frame qb :: rest) u)
    (hlimit : s.par.pollLimit ≠ some (s.ax.npoll + polls)) :
    ∃ u', MoveAt s target b (reads + 2) polls 6 qb.b0 rest u' := by
  have polled1 := h.read <| exec_moveAbs_poll1 h.lock (answer_of_answers h.answers) h.upc (by rwa [h.par, h.npoll])
  have polled2 := polled1.read (exec_moveAbs_poll2 polled1.lock (answer_of_answers polled1.answers) polled1.upc)
  exact ⟨_, polled2⟩

/-- The check of a poll without a terminal condition (R137, R140). -/
theorem MoveAt.wait (h : MoveAt s target b reads polls 6 last rest u) (ho : pollOutcome last = none) :
    ∃ u', MoveAt s target b reads (polls + 1) 4 last rest u' :=
  ⟨_, { run := h.step (exec_moveAbs_wait h.upc h.flags ho)
        par := h.par
        busy := h.busy
        cur := h.cur
        upc := rfl
        npoll := congrArg (· + 1) h.npoll
        flags := h.flags
        resp := h.resp
        lock := h.lock
        answers := h.answers
        sent := h.sent }⟩

/-- Polls without a terminal condition in a row, below the poll limit, by induction on the polls. -/
theorem MoveAt.nonterminalPolls {qs : List (Frame × Frame)} (hq : ∀ q ∈ qs, pollOutcome q.2.b0 = none)
    (h : MoveAt s target b (2 + 2 * polls) polls 4 last ((qs.flatMap fun q => [.frame q.1, .frame q.2]) ++ rest) u)
    (hlimit : ∀ n < polls + qs.length, s.par.pollLimit ≠ some (s.ax.npoll + n)) :
    ∃ u', MoveAt s target b (2 + 2 * (polls + qs.length)) (polls + qs.length) 4
      ((qs.getLast?.map fun q => q.2.b0).getD last) rest u' := by
  induction qs generalizing polls last u with
  | nil => exact ⟨u, h⟩
  | cons q qs ih =>
    obtain ⟨hq0, hqs⟩ := List.forall_mem_cons.1 hq
    rw [List.length_cons, Nat.add_comm qs.length, ← Nat.add_assoc] at hlimit ⊢
    obtain ⟨u₁, polled⟩ := h.poll (hlimit polls (by omega))
    obtain ⟨u₂, waited⟩ := polled.wait hq0
    obtain ⟨u₃, done⟩ := ih hqs waited hlimit
    rw [List.getLast?_cons, Option.map_some, Option.getD_some]
    rw [Option.getD_map] at done
    exact ⟨u₃, done⟩

/-- A step that responds ends the move, with what its earlier steps have sent and counted. -/
theorem MoveAt.ends {n : Nat} {o : MoveOutcome} (h : MoveAt s target b reads polls pos last rest u)
    (hx : exec (.moveAbs target b) u = .next ({ u with ax := { u.ax with npoll := n } }.afterResponse
      { Response.good (some last) with outcome := some o })) :
    ∃ v es, axisSteps (1 + reads + polls + 1) s = .next v ∧ v.bus = s.bus ++ es ∧ bracketed es = true ∧
      sentFrames es = moveFrames target reads ∧ v.answers = rest ∧ v.ax.npoll = n ∧ v.ax.busy = false ∧
      v.ax.cur = none ∧ v.ax.flags = some last ∧
      v.ax.resp = some { Response.good (some last) with outcome := some o } := by
  obtain ⟨es, hbus, hwhole, hsent⟩ := h.sent
  exact ⟨_, es, h.step hx, hbus, hwhole, hsent, h.answers, rfl, rfl, rfl, h.flags, rfl⟩

end Run

/-! ## The obligations about the whole move -/

/-- Settles O35: the priming read leaves a non-blocking move at the step that responds. -/
theorem nonBlockingMoveEndsAfterThePrimingRead : Obligations.NonBlockingMoveEndsAfterThePrimingRead := by
  intro s target w p1 p2 rest hl hbusy hcur hupc hlo hhi hans
  have accepted : MoveAccepted s target false := ⟨hbusy, hcur, hupc, hl, (inS32_iff _).2 ⟨hlo, hhi⟩⟩
  obtain ⟨u, primed⟩ := accepted.primed hans
  have hcount : u.ax.npoll = s.ax.npoll := primed.npoll
  exact primed.ends (n := s.ax.npoll) (by rw [exec_moveAbs_issued primed.upc, primed.flags, ← hcount])

/-- A blocking move is back at the loop head after its target write, its priming read and any polls below the poll limit
that show no terminal condition. -/
theorem MoveAccepted.polled {s : State} {target : Int} {w p1 p2 : Frame} {qs : List (Frame × Frame)}
    {rest : List Answer} (h : MoveAccepted s target true) (hnpoll : s.ax.npoll = 0)
    (hans : s.answers = .frame w :: .frame p1 :: .frame p2 :: (qs.flatMap fun q => [.frame q.1, .frame q.2]) ++ rest)
    (hq : ∀ q ∈ qs, q.2.b0.toNat.testBit 1 = false ∧ q.2.b0.toNat.testBit 5 = false)
    (hlimit : ∀ n < qs.length, s.par.pollLimit ≠ some n) :
    ∃ u, MoveAt s target true (2 + 2 * qs.length) qs.length 4 ((qs.getLast?.map fun q => q.2.b0).getD p2.b0)
      rest u := by
  obtain ⟨u, primed⟩ := h.primed hans
  have hwaits : ∀ q ∈ qs, pollOutcome q.2.b0 = none := fun q hmem =>
    let ⟨h1, h5⟩ := hq q hmem; pollOutcome_eq_none h1 h5
  have hpolls := primed.nonterminalPolls (polls := 0) hwaits (by simpa [hnpoll] using hlimit)
  rwa [Nat.zero_add] at hpolls

/-- The number of steps of a blocking move at the loop head: three exchanges, and three steps per poll (R147). -/
theorem moveSteps_eq (n : Nat) : 3 + 3 * n = 1 + (2 + 2 * n) + n := by omega

/-- Settles O34: after `n` polls the move is at the loop head, at the limit. -/
theorem pollLimitEndsTheMove : Obligations.PollLimitEndsTheMove := by
  rintro s target w p1 p2 polls rest last hl hbusy hcur hupc hnpoll hlimit hlo hhi hq rfl hans
  have accepted : MoveAccepted s target true := ⟨hbusy, hcur, hupc, hl, (inS32_iff _).2 ⟨hlo, hhi⟩⟩
  obtain ⟨u, polled⟩ := accepted.polled hnpoll hans hq (fun n hn h => by rw [hlimit, Option.some_inj] at h; omega)
  have hcount : u.ax.npoll = polls.length := by rw [polled.npoll, hnpoll, Nat.zero_add]
  rw [moveSteps_eq]
  exact polled.ends (n := polls.length) (by
    rw [exec_moveAbs_pollTimeout polled.upc (by rw [polled.par, hlimit, hcount]), polled.flags, ← hcount])

/-- Settles O37: after `n` polls the move is at the loop head; one more poll brings it to the check that ends it. -/
theorem blockingMoveEndsAtTheTerminalPoll : Obligations.BlockingMoveEndsAtTheTerminalPoll := by
  intro s target w p1 p2 qa qb polls rest hl hbusy hcur hupc hnpoll hlimit hlo hhi hq hterm hans
  have accepted : MoveAccepted s target true := ⟨hbusy, hcur, hupc, hl, (inS32_iff _).2 ⟨hlo, hhi⟩⟩
  obtain ⟨u, polled⟩ := accepted.polled hnpoll hans hq (by simp [hlimit])
  obtain ⟨u', checking⟩ := polled.poll (by simp [hlimit])
  have hcount : u'.ax.npoll = polls.length := by rw [checking.npoll, hnpoll, Nat.zero_add]
  have hend := exec_moveAbs_terminal (target := target) (b := true) checking.upc checking.flags
    (pollOutcome_eq_some hterm)
  rw [hcount] at hend
  have hsteps : 3 + 3 * polls.length + 3 = 1 + (2 + 2 * polls.length + 2) + polls.length + 1 := by omega
  rw [hsteps]
  exact checking.ends hend

/-- Settles O38: after any number of polls without a terminal condition the move is back at the loop head. -/
theorem unboundedPollingNeverResponds : Obligations.UnboundedPollingNeverResponds := by
  intro s target w p1 p2 polls rest hl hbusy hcur hupc hnpoll hlimit hlo hhi hq hans
  have accepted : MoveAccepted s target true := ⟨hbusy, hcur, hupc, hl, (inS32_iff _).2 ⟨hlo, hhi⟩⟩
  obtain ⟨u, polled⟩ := accepted.polled hnpoll hans hq (by simp [hlimit])
  have hcount : u.ax.npoll = polls.length := by rw [polled.npoll, hnpoll, Nat.zero_add]
  obtain ⟨es, hbus, -, hsent⟩ := polled.sent
  have hlength : (sentFrames u.bus).length = (sentFrames s.bus).length + 3 + 2 * polls.length := by
    rw [hbus, sentFrames_append, hsent, List.length_append, moveFrames, List.length_cons, List.length_replicate]
    omega
  rw [moveSteps_eq]
  exact ⟨u, polled.run, polled.busy, polled.cur.trans hcur.symm, hcount, polled.resp, polled.lock, polled.answers,
    hlength⟩

end Sys2Proof.Machine
end

section
/-!
PROOFS. The taking of exceptions and the isolation of the axes (R159, R160, R172): what the turn changes and what it leaves,
that a step keeps every other axis, that no instruction looks at the other axes, and how errors end a command.
-/

namespace Sys2Proof.Machine

/-! ## The turn -/

/-- As many axes stand before the one that is given the turn as its number says. -/
theorem focus_before_length {k : Nat} {s : State} (h : k < s.axes.length) : (s.focus k).before.length = k := by
  unfold State.focus
  rw [List.drop_eq_getElem_cons h]
  exact List.length_take_of_le h.le

/-- A number that names no axis leaves the turn where it is (log 10). -/
theorem focus_of_length_le {k : Nat} {s : State} (h : s.axes.length ≤ k) : s.focus k = s := by
  unfold State.focus
  rw [List.drop_eq_nil_of_le h]

/-- Beside the axes, taking the turn consumes a turn input and changes nothing. -/
theorem takeTurn_rest (s : State) :
    s.takeTurn.par = s.par ∧ s.takeTurn.lock = s.lock ∧ s.takeTurn.bus = s.bus ∧ s.takeTurn.answers = s.answers ∧
    s.takeTurn.draws = s.draws ∧ s.takeTurn.turns = s.turns.tail ∧ s.takeTurn.ticks = s.ticks + 1 :=
  focus_rest s.turn { s with turns := s.turns.tail, ticks := s.ticks + 1 }

/-- Where the turn input names no axis, consuming it is all that happens (log 10). -/
theorem takeTurn_of_length_le {s : State} (h : s.axes.length ≤ s.turn) :
    s.takeTurn = { s with turns := s.turns.tail, ticks := s.ticks + 1 } :=
  focus_of_length_le (s := { s with turns := s.turns.tail, ticks := s.ticks + 1 }) h

/-- Settles O10: a turn input is consumed, and the focus moves to the axis it names, if it names one. -/
theorem takingTheTurnChangesNoAxis : Obligations.TakingTheTurnChangesNoAxis := by
  intro s
  obtain ⟨hpar, hlock, hbus, hans, hdraws, hturns, hticks⟩ := takeTurn_rest s
  refine ⟨takeTurn_axes s, hpar, hlock, hbus, hans, hdraws, hturns, hticks, fun h => ?named, fun h => ?unnamed⟩
  case named =>
    have h' : s.turn < ({ s with turns := s.turns.tail, ticks := s.ticks + 1 } : State).axes.length := h
    exact ⟨focus_ax h', focus_before_length h'⟩
  case unnamed =>
    rw [takeTurn_of_length_le h]
    exact ⟨rfl, rfl⟩

/-! ## A step and the other axes -/

/-- What a step of the axis that has the turn leaves, of the arguments of the model, the other axes and its chip select,
whether it goes on, accepts, exchanges a wire frame or waits (R64, R172). -/
theorem axisStep_frame {s t : State} (h : axisStep s = .next t) :
    t.par = s.par ∧ t.before = s.before ∧ t.after = s.after ∧ t.ax.chip = s.ax.chip := by
  have ran : ∀ {i u}, exec i u = .next t →
      t.par = u.par ∧ t.before = u.before ∧ t.after = u.after ∧ t.ax.chip = u.ax.chip := fun hx => by
    obtain ⟨hpar, hbefore, hafter, -, -, hchip, -⟩ := instructionsLeaveTheRestUnchanged _ _ _ hx
    exact ⟨hpar, hbefore, hafter, hchip⟩
  unfold axisStep at h
  rcases fetch_cases s with ⟨i, -, -, hf⟩ | ⟨f, -, -, -, hf⟩ | ⟨w, rest, i, -, -, -, -, hf⟩ |
    ⟨w, rest, e, -, -, -, -, hf⟩ | hf <;> rw [hf] at h
  · exact ran h
  · exact ran (u := { s with ax := { s.ax with wireIn := none } }) h
  · exact ran (u := s.accept i) h
  · cases h
  · cases h
    exact ⟨rfl, rfl, rfl, rfl⟩

/-- Where the other axes are kept, the list of axes changes at the place of the axis that has the turn. -/
theorem axes_eq_set {s t : State} (hbefore : t.before = s.before) (hafter : t.after = s.after) :
    t.axes = s.axes.set s.before.length t.ax := by
  simp [hbefore, hafter]

/-- Settles O52: the turn moves no axis in the list, and then the step replaces one axis by one with its chip select. -/
theorem stepsChangeOneAxisOnly : Obligations.StepsChangeOneAxisOnly := by
  intro s t h
  obtain ⟨hpar, hbefore, hafter, hchip⟩ := axisStep_frame h
  obtain ⟨hturn, -⟩ := takeTurn_rest s
  have haxes : t.axes = s.axes.set s.takeTurn.before.length t.ax := by
    rw [← takeTurn_axes s]
    exact axes_eq_set hbefore hafter
  refine ⟨hpar.trans hturn, ?length, ?chips, ?others⟩
  case length => rw [haxes, List.length_set]
  case chips =>
    rw [← takeTurn_axes s]
    simp [hbefore, hafter, hchip]
  case others =>
    intro k hk
    rw [haxes, List.getElem?_set_ne hk.symm]

/-! ## What an instruction does beside other axes -/

/-- The machine with the other axes replaced. -/
def State.withOthers (bs cs : List Axis) (s : State) : State := { s with before := bs, after := cs }

/-- A result with the other axes replaced in its next state. -/
def Result.withOthers (bs cs : List Axis) : Result → Result
  | .next t => .next (t.withOthers bs cs)
  | .fault f => .fault f
  | .refused r => .refused r

section Others

variable (bs cs : List Axis) (s : State)

@[simp] theorem withOthers_ax : (s.withOthers bs cs).ax = s.ax := rfl
@[simp] theorem withOthers_par : (s.withOthers bs cs).par = s.par := rfl
@[simp] theorem withOthers_lock : (s.withOthers bs cs).lock = s.lock := rfl
@[simp] theorem withOthers_answer : (s.withOthers bs cs).answer = s.answer := rfl

theorem xchgKeeping_withOthers (keep : Frame → Axis → Axis) (out : Frame) :
    (s.withOthers bs cs).xchgKeeping keep out = (s.xchgKeeping keep out).withOthers bs cs := by
  unfold State.xchgKeeping
  rw [withOthers_answer]
  cases s.answer <;> rfl

theorem whenBusFree_withOthers (t : State) :
    (t.withOthers bs cs).whenBusFree (s.withOthers bs cs) = (t.whenBusFree s).withOthers bs cs := by
  unfold State.whenBusFree
  rw [withOthers_lock]
  split <;> rfl

theorem logicalWrite_withOthers (a v : Int) (pos : Nat) (latched : State) :
    (s.withOthers bs cs).logicalWrite a v pos (latched.withOthers bs cs) =
      (s.logicalWrite a v pos latched).withOthers bs cs := by
  unfold State.logicalWrite
  cases encodeFrame .write a v with
  | error e => rfl
  | ok out => simp only [State.xchg, xchgKeeping_withOthers, whenBusFree_withOthers]

theorem readExchange_withOthers (a : Int) (pos : Nat) :
    (s.withOthers bs cs).readExchange a pos = (s.readExchange a pos).withOthers bs cs := by
  unfold State.readExchange
  cases encodeFrame .read a 0 with
  | error e => rfl
  | ok out => simp only [State.xchg, xchgKeeping_withOthers, whenBusFree_withOthers]

theorem oneStep_withOthers {f : State → State} (hf : f (s.withOthers bs cs) = (f s).withOthers bs cs) :
    oneStep f (s.withOthers bs cs) = Result.withOthers bs cs (oneStep f s) := by
  unfold oneStep
  rw [withOthers_ax, hf]
  split <;> rfl

theorem writeSequence_withOthers (ws : List (Int × Int)) :
    writeSequence ws (s.withOthers bs cs) = Result.withOthers bs cs (writeSequence ws s) := by
  unfold writeSequence
  rw [withOthers_ax]
  split
  · rw [logicalWrite_withOthers]; rfl
  · split <;> rfl

theorem readSequence_withOthers (a : Int) :
    readSequence a (s.withOthers bs cs) = Result.withOthers bs cs (readSequence a s) := by
  unfold readSequence
  simp only [withOthers_ax, readExchange_withOthers]
  split
  case h_3 => split <;> rfl -- position 2, the response with the value
  all_goals rfl

theorem exchangeFrame_withOthers (out : Frame) :
    exchangeFrame out (s.withOthers bs cs) = Result.withOthers bs cs (exchangeFrame out s) := by
  simp only [exchangeFrame, xchgKeeping_withOthers, whenBusFree_withOthers, Result.withOthers]

theorem movePoll_withOthers : movePoll (s.withOthers bs cs) = (movePoll s).withOthers bs cs := by
  unfold movePoll
  rw [withOthers_ax, withOthers_par, readExchange_withOthers]
  split <;> rfl

theorem moveCheck_withOthers (b : Byte) : moveCheck b (s.withOthers bs cs) = (moveCheck b s).withOthers bs cs := by
  unfold moveCheck
  cases pollOutcome b <;> rfl

theorem execMoveAbs_withOthers (target : Int) (b : Bool) :
    execMoveAbs target b (s.withOthers bs cs) = Result.withOthers bs cs (execMoveAbs target b s) := by
  unfold execMoveAbs
  simp only [withOthers_ax, logicalWrite_withOthers, readExchange_withOthers, movePoll_withOthers,
    moveCheck_withOthers]
  split
  case h_7 => split <;> rfl -- position 6, `M_CHK`
  all_goals rfl

theorem execSetup_withOthers (speed at_ run hold : Rat) :
    execSetup speed at_ run hold (s.withOthers bs cs) =
      Result.withOthers bs cs (execSetup speed at_ run hold s) := by
  unfold execSetup
  dsimp only
  rw [withOthers_ax, withOthers_par]
  split
  · split
    · rfl
    · exact congrArg Host.Outcome.next (logicalWrite_withOthers bs cs s _ _ _ { s with ax := setupLatch _ _ _ })
  · split <;> rfl

/-- No instruction reads or writes another axis (R172). -/
theorem exec_withOthers (i : Instr) : exec i (s.withOthers bs cs) = Result.withOthers bs cs (exec i s) := by
  cases hcmd : i.isCommand with
  | false =>
    obtain ⟨out, h⟩ := exec_wire hcmd
    rw [h, h, exchangeFrame_withOthers]
  | true =>
    cases i with
    | encodeFrame d a v =>
      rw [exec, execEncodeFrame]
      refine oneStep_withOthers bs cs s ?_
      cases encodeFrame d a v <;> rfl
    | decodeFrame f => exact oneStep_withOthers bs cs s rfl
    | getFlags =>
      rw [exec, execGetFlags]
      refine oneStep_withOthers bs cs s ?_
      rw [withOthers_ax]
      cases s.ax.flags <;> rfl
    | setup speed at_ run hold => exact execSetup_withOthers bs cs s speed at_ run hold
    | moveAbs target b => exact execMoveAbs_withOthers bs cs s target b
    | writeReg | setPos | setEnc => exact writeSequence_withOthers bs cs s _
    | readReg | getPos | readEnc => exact readSequence_withOthers bs cs s _
    | reserved0 | reservedC | reservedD | reservedE | reservedF => rfl
    | _ => cases hcmd

end Others

/-- Settles O47: every operation of an instruction commutes with replacing the other axes. -/
theorem instructionsIgnoreOtherAxes : Obligations.InstructionsIgnoreOtherAxes := by
  intro i s t bs cs h
  have hx := exec_withOthers bs cs s i
  rw [h] at hx
  exact hx

/-! ## Errors -/

/-- Settles O41: of the shapes of a step, those that leave the bus alone are excluded, and so are the exchanges answered by
a frame; a transport error is what is left. -/
theorem transportErrorsArePassedOnUnchanged : Obligations.TransportErrorsArePassedOnUnchanged := by
  intro i s t e h hbus hans
  rcases exec_cases h with ⟨-, rfl⟩ | ⟨_, _, -, rfl, -⟩ | ⟨_, _, r, _, -, -, -, -, hframe, -⟩ |
    ⟨a, out, e', ha, -, -, herror, rfl⟩ | ⟨_, _, -, -, rfl⟩ | ⟨_, r, -, -, hframe, -⟩
  · exact (hbus rfl).elim
  · exact (hbus rfl).elim
  · simp [hans] at hframe
  · obtain rfl : e = e' := Answer.error.inj (hans.symm.trans herror)
    obtain ⟨hchip, -, -, -, hflags, -⟩ := ha.settles.unchanged
    rw [← hchip, ← hflags]
    exact ⟨rfl, rfl, rfl, rfl, rfl, rfl, out, rfl⟩
  · exact (hbus rfl).elim
  · simp [hans] at hframe

/-- Settles O39: the response of a raise has the status and the information of its error (`raise_eq_afterResponse`). -/
theorem statusCodesAreNumbered : Obligations.StatusCodesAreNumbered := by
  refine ⟨rfl, rfl, rfl, rfl, rfl, rfl, rfl, rfl, rfl, rfl, fun s e => ?_⟩
  refine ⟨Response.bad e.status e.info s.ax.flags, by rw [raise_eq_afterResponse, afterResponse_ax_resp], ?_⟩
  refine ⟨?encoding, ?transport, ?scaleDomain, ?flagsUnset, ?badCommand⟩
  case encoding => rintro f got rfl; exact ⟨rfl, rfl⟩
  case transport => rintro x rfl; exact ⟨rfl, rfl⟩
  case scaleDomain => rintro q rfl; exact ⟨rfl, rfl⟩
  case flagsUnset => rintro rfl; exact ⟨rfl, rfl⟩
  case badCommand => rintro c rfl; exact ⟨rfl, rfl⟩

end Sys2Proof.Machine
end

section
/-!
PROOFS. The state after reset (R175): every axis is `Axis.reset` of its chip select, so it meets the invariant, and with no
input at any axis a step is the passing of the turn.
-/

namespace Sys2Proof.Machine

/-! ## The axes after reset -/

/-- After reset axis `i` is `Axis.reset` of the chip select the map gives it (R64). -/
theorem resetWith_axes (par : Params) (chips : ChipMap) (others : Nat) :
    (State.resetWith par chips others).axes = (List.range (others + 1)).map fun i => Axis.reset (chips.chip i) := by
  rw [List.range_succ_eq_map, List.map_cons, List.map_map]
  rfl

theorem eq_reset_of_mem_resetWith_axes {par : Params} {chips : ChipMap} {others : Nat} {a : Axis}
    (h : a ∈ (State.resetWith par chips others).axes) : ∃ chip, a = Axis.reset chip := by
  rw [resetWith_axes, List.mem_map] at h
  obtain ⟨i, -, rfl⟩ := h
  exact ⟨_, rfl⟩

/-- The chip selects after reset are values of the axis-to-chip map at distinct axes, and the map is injective (R64). -/
theorem resetWith_chips_nodup (par : Params) (chips : ChipMap) (others : Nat) :
    ((State.resetWith par chips others).axes.map Axis.chip).Nodup := by
  rw [resetWith_axes, List.map_map]
  exact List.nodup_range.map fun i j h => chips.injective i j h

/-! ## The invariant -/

/-- An axis after reset is idle, holds no AxisConfig and has done no poll (R20, R175). -/
theorem axisReset_inv (par : Params) (chip : Nat) : (Axis.reset chip).Inv par := by
  refine .of_idle rfl rfl rfl rfl ?config ?polls ?response
  case config => exact ⟨nofun, nofun, ⟨rfl, rfl⟩, nofun⟩
  case polls => exact fun n _ => Nat.zero_le n
  case response => simp [Axis.reset]

theorem resetWith_inv (par : Params) (chips : ChipMap) (others : Nat) : (State.resetWith par chips others).Inv where
  lock_free := rfl
  whole_exchanges := rfl
  own_chips := resetWith_chips_nodup par chips others
  each_axis a ha := by
    obtain ⟨chip, rfl⟩ := eq_reset_of_mem_resetWith_axes ha
    exact axisReset_inv par chip

/-- Settles O49: the invariant holds at reset whatever the arguments of the model are. -/
theorem resetMeetsTheInvariant : Obligations.ResetMeetsTheInvariant := resetWith_inv _ _ _

/-! ## The step after reset -/

theorem State.ax_mem_axes (s : State) : s.ax ∈ s.axes := List.mem_append_right _ List.mem_cons_self

/-- Where every axis is idle and has no input, a step is the passing of the turn (R175, log 14). -/
theorem step_eq_takeTurn_of_no_input {s : State}
    (h : ∀ a ∈ s.axes, a.busy = false ∧ a.port = [] ∧ a.wireIn = none) : step s = .next s.takeTurn := by
  have hmem : s.takeTurn.ax ∈ s.axes := takeTurn_axes s ▸ s.takeTurn.ax_mem_axes
  obtain ⟨hbusy, hport, hwire⟩ := h _ hmem
  obtain ⟨-, -, -, -, hidle, -⟩ := stepRunsTheDecodedInstruction s _ rfl
  exact hidle hbusy hwire hport

/-- Settles O48: the values are those of `Axis.reset`, and the passing of the turn leaves the axes and the bus. -/
theorem resetLeavesTheBlockIdle : Obligations.ResetLeavesTheBlockIdle := by
  refine ⟨rfl, rfl, ?oneAxis, fun a ha => ?values, fun hinput => ?waits⟩
  case oneAxis => exact List.length_pos_of_mem State.reset.ax_mem_axes
  case values =>
    obtain ⟨chip, rfl⟩ := eq_reset_of_mem_resetWith_axes ha
    exact ⟨rfl, rfl, rfl, rfl, rfl, rfl, rfl, rfl, rfl, rfl, rfl, rfl⟩
  case waits =>
    obtain ⟨-, hlock, hbus, -⟩ := takeTurn_rest State.reset
    refine ⟨State.reset.takeTurn, step_eq_takeTurn_of_no_input fun a ha => ⟨?busy, hinput a ha⟩,
      takeTurn_axes _, hbus, hlock⟩
    obtain ⟨chip, rfl⟩ := eq_reset_of_mem_resetWith_axes ha
    rfl

end Sys2Proof.Machine
end
